-- ==== Sys2Proof/Word.lean ====
section
/-! DEFINITION. The word: the one unit of storage, an integer 0..999 read as three decimal digits (00_scope R9, R30, R60). -/

namespace Sys2Proof

/-- A word: an integer `w` with `0 <= w <= 999` (00_scope R9). The accumulator and every memory word hold one.
There are no bits in this machine, so it is a bounded number and not a bit vector. -/
abbrev Word := Fin 1000

/-- The word a natural number stands for, where there is one: `none` from 1000 up (00_scope R9). -/
def Word.ofNat? (n : Nat) : Option Word := if h : n < 1000 then some ⟨n, h⟩ else none

end Sys2Proof
end

