-- ==== Sys2Proof/Syntax.lean ====
section
/-! DEFINITION. The instructions: one constructor per row of spec/opcode_table.json, in the table's order
(30_encoding R81, R83, R91). -/

namespace Sys2Proof

/-- One constructor per row of the opcode table. A format A instruction carries its operand address (30_encoding R81,
R82), a row of illegal words carries the word itself where the row has more than one (30_encoding R86), and the
directive DAT carries the value of its argument once it is a number (40_assembler R126 to R128). -/
inductive Instr where
  | hlt
  | illegalLow0xx (w : Word)
  | add (addr : Nat)
  | sub (addr : Nat)
  | sta (addr : Nat)
  | illegalUnassigned4xx (w : Word)
  | lda (addr : Nat)
  | bra (addr : Nat)
  | brz (addr : Nat)
  | brp (addr : Nat)
  | illegalReserved900
  | inp
  | out
  | illegalHigh9xx (w : Word)
  | dat (v : Int)
  deriving DecidableEq, Repr

end Sys2Proof
end

