-- ==== Sys2Proof/Config.lean ====
section
/-! DEFINITION. The fixed parameters of the architecture (00_scope R6), the trace events' kinds and levels (41_step_cycle
R173), and the values the spec leaves open, each an opaque constant (00_scope R8; 93_implementation_defined U7, U12 to U14). -/

namespace Sys2Proof

/-- `MEM_SIZE`: memory has the addresses 0..99 (00_scope R6). -/
@[simp] abbrev Config.memSize : Nat := 100

/-- `WORD_MOD`: words and the accumulator hold 0..999 (00_scope R6). -/
@[simp] abbrev Config.wordMod : Nat := 1000

/-- `SIGN_THRESHOLD`: stored values from 500 up read as negative in the signed view (00_scope R6). -/
@[simp] abbrev Config.signThreshold : Nat := 500

/-- `ADDR_MOD`: the operand address is the word modulo 100 (00_scope R6). -/
@[simp] abbrev Config.addrMod : Nat := 100

/-- `TRACE_LEVELS`: none(0), low(1), medium(2), high(3) (00_scope R6, 41_step_cycle R173). -/
inductive TraceLevel where
  | none
  | low
  | medium
  | high
  deriving DecidableEq, Repr

/-- The number of a verbosity level (00_scope R6). -/
def TraceLevel.num : TraceLevel → Nat
  | .none => 0
  | .low => 1
  | .medium => 2
  | .high => 3

/-- What a trace event is about: all its text may depend on (00_scope R15 `TRACE_TEXT(kind, state)`; 41_step_cycle R151,
R152, R156). DESIGN CHOICE (log 7), safe: the spec gives no payload, so each kind carries what the spec says it notes. -/
inductive TraceKind where
  /-- "the address about to be fetched" (41_step_cycle R151). -/
  | fetchAddress (pc : Nat)
  /-- "the instruction value" (41_step_cycle R152). -/
  | instructionValue (w : Word)
  /-- "a full dump of all 100 memory cells, the accumulator, and the counter" (41_step_cycle R152). -/
  | dump (mem : List (Nat × Word)) (acc : Word) (pc : Nat)
  /-- "describing operands and the resulting value" (41_step_cycle R156). -/
  | teaching (i : Instr) (operands : List Word) (result : Nat)
  deriving DecidableEq, Repr

/-- `TRACE_TEXT`, OPEN (00_scope R8, D8): the text of a trace event. Nothing is known of it (log 7). -/
opaque Config.traceText : TraceKind → String

/-- `HALT_MESSAGE`, OPEN (00_scope R8, D7): the text of the completion message in the state after reset (log 6). -/
opaque Config.haltMessage : String

/-- `FETCH_IN_READ_SET`, OPEN (00_scope R8, D10), in the state after reset (log 6). -/
opaque Config.fetchInReadSet : Bool

/-- The integer the input producer returns at position `n` of its stream: any integer (45_io_halt R211, R213, U7; log 8). -/
opaque Config.freeInput : Nat → Int

/-- Whether the `n`-th step on which a low-verbosity trace is not stated emits one (41_step_cycle R156, U13; log 10). -/
opaque Config.freeTrace : Nat → Bool

end Sys2Proof
end

