-- ==== Sys2Proof/Machine/Operands.lean ====
section
/-! DEFINITION. Digits, capping, the signed view, and the operand address check (00_scope R9 to R13; 30_encoding R82;
20_memory R63). -/

namespace Sys2Proof.Machine

/-- The digit slice `dig[hi:lo](w) = (w div 10^lo) mod 10^(hi-lo+1)` (00_scope R9). -/
def dig (hi lo : Nat) (w : Word) : Nat := w.val / 10 ^ lo % 10 ^ (hi - lo + 1)

/-- `cap(z) = z mod 1000`, with the floor modulo of 00_scope R10, for any integer (00_scope R11). -/
def cap (z : Int) : Word := ⟨(z % (1000 : Int)).toNat, by omega⟩

/-- Offset encoding: `1000 + v` if `v < 0`, else `v` (00_scope R12). -/
def enc (v : Int) : Int := if v < 0 then Config.wordMod + v else v

/-- Offset decoding: `w - 1000` if `w >= 500`, else `w` (00_scope R12). -/
def dec (w : Word) : Int := if Config.signThreshold ≤ w.val then (w.val : Int) - Config.wordMod else w.val

/-- The defensive check of an operand address: it lies in 0..99 (60_exceptions R234, 20_memory R63). -/
def addrValid (addr : Nat) : Bool := decide (addr < Config.memSize)

end Sys2Proof.Machine
end

