-- ==== Sys2Proof/Machine/Flags.lean ====
section
/-! DEFINITION. The tests of the conditional branches. There are no flags and no condition codes: BRZ and BRP test the
accumulator's current value (10_state R36; 44_branch R202, R204). -/

namespace Sys2Proof.Machine

/-- BRZ's test: the stored value is 0 (44_branch R202). -/
def isZero (x : Word) : Bool := decide (x.val = 0)

/-- BRP's test: the stored value is below 500, that is `dec(x) >= 0` (44_branch R204). -/
def isPositive (x : Word) : Bool := decide (x.val < Config.signThreshold)

end Sys2Proof.Machine
end

