-- ==== Sys2Proof/WellFormed.lean ====
section
/-! DEFINITION. Which instructions have an encoding: the ranges the opcode table gives each row (30_encoding R81, R83, R86;
40_assembler R127). -/

namespace Sys2Proof

/-- An operand address lies in 0..99 (30_encoding R82). -/
def addrOk (addr : Nat) : Bool := decide (addr < 100)

/-- A word lies in the inclusive range of its row. -/
def inRange (lo hi : Nat) (w : Word) : Bool := decide (lo ≤ w.val) && decide (w.val ≤ hi)

/-- A DAT argument lies in -999..999 (40_assembler R127). -/
def datOk (v : Int) : Bool := decide (-999 ≤ v) && decide (v ≤ 999)

/-- The instruction has an encoding in its own row of the opcode table. -/
def Instr.wellFormed : Instr → Bool
  | .hlt => true
  | .illegalLow0xx w => inRange 1 99 w
  | .add addr => addrOk addr
  | .sub addr => addrOk addr
  | .sta addr => addrOk addr
  | .illegalUnassigned4xx w => inRange 400 499 w
  | .lda addr => addrOk addr
  | .bra addr => addrOk addr
  | .brz addr => addrOk addr
  | .brp addr => addrOk addr
  | .illegalReserved900 => true
  | .inp => true
  | .out => true
  | .illegalHigh9xx w => inRange 903 999 w
  | .dat v => datOk v

/-- The instruction is well-formed. -/
abbrev WellFormed (i : Instr) : Prop := i.wellFormed = true

end Sys2Proof
end

