-- ==== Sys2Proof/Decode.lean ====
section
/-! DEFINITION. Decoding by numeric range (30_encoding R80 to R83, R86) and encoding (30_encoding R85, 40_assembler R128). -/

namespace Sys2Proof

/-- The instruction a word is read as: the fourteen ranges of 30_encoding R83, in its order. The operand address is
`w mod 100` (30_encoding R82). The four illegal ranges decode to constructors of their own, whose meaning is the fatal
error of 60_exceptions R231. No word decodes to the directive DAT (30_encoding R91). -/
def decode (w : Word) : Instr :=
  if w.val = 0 then .hlt
  else if w.val ≤ 99 then .illegalLow0xx w
  else if w.val ≤ 199 then .add (Machine.dig 1 0 w)
  else if w.val ≤ 299 then .sub (Machine.dig 1 0 w)
  else if w.val ≤ 399 then .sta (Machine.dig 1 0 w)
  else if w.val ≤ 499 then .illegalUnassigned4xx w
  else if w.val ≤ 599 then .lda (Machine.dig 1 0 w)
  else if w.val ≤ 699 then .bra (Machine.dig 1 0 w)
  else if w.val ≤ 799 then .brz (Machine.dig 1 0 w)
  else if w.val ≤ 899 then .brp (Machine.dig 1 0 w)
  else if w.val = 900 then .illegalReserved900
  else if w.val = 901 then .inp
  else if w.val = 902 then .out
  else .illegalHigh9xx w

/-- Why a number is no instruction word. -/
inductive DecodeError where
  /-- The number is above 999, so it is no word (00_scope R9). -/
  | notAWord (n : Nat)
  deriving DecidableEq, Repr

/-- Decoding of any number: a word is decoded, anything above 999 is rejected by name (00_scope R9, 30_encoding R80). -/
def decodeNat (n : Nat) : Except DecodeError Instr :=
  match Word.ofNat? n with
  | some w => .ok (decode w)
  | none => .error (.notAWord n)

/-- The number an instruction is encoded as: `100*op + n` for format A, the code itself for format F (30_encoding R81,
R85), the word itself for an illegal word, `enc(v)` for DAT (40_assembler R128). -/
def encodeValue : Instr → Int
  | .hlt => 0
  | .illegalLow0xx w => w.val
  | .add addr => 100 * 1 + addr
  | .sub addr => 100 * 2 + addr
  | .sta addr => 100 * 3 + addr
  | .illegalUnassigned4xx w => w.val
  | .lda addr => 100 * 5 + addr
  | .bra addr => 100 * 6 + addr
  | .brz addr => 100 * 7 + addr
  | .brp addr => 100 * 8 + addr
  | .illegalReserved900 => 900
  | .inp => 901
  | .out => 902
  | .illegalHigh9xx w => w.val
  | .dat v => Machine.enc v

/-- The word of a well-formed instruction. (For one that is not well-formed the value is brought into 0..999 and means
nothing: 30_encoding R85 encodes validated arguments only.) -/
def encode (i : Instr) : Word := Machine.cap (encodeValue i)

/-- The decoder on a word given as a number of `nbits` bits, bit 0 the least significant. DESIGN CHOICE (log 18), safe:
the spec gives a word no bits (WORD_REPR is open, D29), so the number the bits write in binary is the word. -/
def decodeTableWord (nbits w : Nat) : Option Instr :=
  match decodeNat (w % 2 ^ nbits) with
  | .ok i => some i
  | .error _ => none

end Sys2Proof
end

