-- ==== Sys2Proof/Machine/State.lean ====
section
/-! DEFINITION. The engine's state (10_state), the other parties of its transactions as plain data, the reasons a step
stops, and the state after reset. -/

namespace Sys2Proof.Machine

/-- One word of memory at an address. The machine has no bytes (20_memory R64), so the cell holds a word (log 1). -/
abbrev Cell := Nat × Word

/-- Memory: the words that differ from what an unlisted address reads as, addresses strictly rising (10_state R37). -/
abbrev Memory := List Cell

/-- What an unlisted address reads as: 0, the padding of every image (10_state R37, R52; log 2). -/
@[simp] abbrev Memory.unlisted : Word := 0

/-- The cells' addresses are strictly rising from `lo` on and below 100, and no cell holds the unlisted value. -/
def Memory.wfFrom : Nat → Memory → Bool
  | _, [] => true
  | lo, (a, w) :: rest =>
    decide (lo ≤ a) && decide (a < Config.memSize) && decide (w ≠ Memory.unlisted) && Memory.wfFrom (a + 1) rest

/-- Memory is in its canonical form, so equal memories are equal lists. -/
def Memory.wf (m : Memory) : Bool := Memory.wfFrom 0 m

/-- A set of addresses, as the rising list of its members (10_state R44). -/
abbrev AddrSet := List Nat

/-- The members are strictly rising from `lo` on and in 0..99. -/
def AddrSet.wfFrom : Nat → AddrSet → Bool
  | _, [] => true
  | lo, a :: rest => decide (lo ≤ a) && decide (a < Config.memSize) && AddrSet.wfFrom (a + 1) rest

/-- The list is a set of addresses in 0..99 in its canonical form. -/
def AddrSet.wf (m : AddrSet) : Bool := AddrSet.wfFrom 0 m

/-- The instrumentation record `instr` of the most recent step (10_state R44). -/
structure Instrumentation where
  /-- `instr.acc_read` -/
  accRead : Bool
  /-- `instr.acc_written` -/
  accWritten : Bool
  /-- `instr.mem_reads` -/
  memReads : AddrSet
  /-- `instr.mem_writes` -/
  memWrites : AddrSet
  deriving DecidableEq, Repr

/-- The record as it is at the start of every step and after reset (10_state R44, R50). -/
def Instrumentation.cleared : Instrumentation := ⟨false, false, [], []⟩

/-- The four classes of illegal words (60_exceptions R231). -/
inductive IllegalClass where
  | low0xx
  | unassigned4xx
  | reserved900
  | high9xx
  deriving DecidableEq, Repr

/-- The kinds of fatal error: a closed enumeration with no numeric codes (60_exceptions R230, R235). -/
inductive FatalKind where
  /-- An unassigned word was fetched (60_exceptions R231). -/
  | invalidInstruction (c : IllegalClass)
  /-- A step was requested with `pc = 100` (60_exceptions R233). -/
  | fetchOutOfRange
  /-- An operand address outside 0..99: no decoded word raises it (60_exceptions R234). -/
  | addressOutOfRange
  deriving DecidableEq, Repr

/-- The status latch (10_state R41). -/
inductive Status where
  | ready
  | halted
  | awaitingInput (resume : Bool)
  | faulted (kind : FatalKind) (addr : Nat) (value : Option Word)
  deriving DecidableEq, Repr

/-- The halt reasons: the one the source names (45_io_halt R221). -/
inductive HaltReason where
  | explicitHalt
  deriving DecidableEq, Repr

/-- The step outcomes (41_step_cycle R157, R161). -/
inductive StepOutcome where
  | continued
  | halted (reason : HaltReason)
  | awaitingInput (resume : Bool)
  deriving DecidableEq, Repr

/-- What the host gets back from an operation (41_step_cycle R172, 60_exceptions R236). -/
inductive Reply where
  /-- Nothing: a reset, or a run that has not returned. -/
  | nothing
  | outcome (o : StepOutcome)
  | fatal (kind : FatalKind) (addr : Nat) (value : Option Word)
  /-- `DeliverInput` returns the resume flag (41_step_cycle R164). -/
  | resume (r : Bool)
  deriving DecidableEq, Repr

/-- The two input modes (00_scope R7, 45_io_halt R210). -/
inductive InputMode where
  | blocking
  | suspension
  deriving DecidableEq, Repr

/-- What is chosen when an engine is constructed and never changes (00_scope R7, R8; 10_state R40). -/
structure EngineConfig where
  /-- `INPUT_MODE` -/
  inputMode : InputMode
  /-- `TRACE_THRESHOLD` -/
  traceThreshold : TraceLevel
  /-- `FETCH_IN_READ_SET` (D10) -/
  fetchInReadSet : Bool
  /-- `HALT_MESSAGE` (D7) -/
  haltMessage : String
  /-- Whether the input producer answers once the integers in `State.inputs` are used up (45_io_halt R211, D25). -/
  producerAnswers : Bool
  /-- Whether the output consumer returns when it is called (45_io_halt R215, D25). -/
  outputReturns : Bool
  /-- Whether the trace consumer returns when it is called (70_reset_and_hazards R273, D25). -/
  traceReturns : Bool
  deriving DecidableEq, Repr

/-- One event between the engine and a collaborator (41_step_cycle R159). -/
inductive Event where
  /-- A (message, level) event to the trace consumer; its text is `Config.traceText kind` (41_step_cycle R173). -/
  | trace (level : TraceLevel) (kind : TraceKind)
  /-- The input producer was asked and returned `v` (45_io_halt R211). -/
  | inputTaken (v : Int)
  /-- A signed integer to the output consumer (45_io_halt R214). -/
  | output (v : Int)
  /-- The completion string to the output consumer (45_io_halt R218, R219). -/
  | completion (message : String)
  deriving DecidableEq, Repr

/-- An operation of the host on a constructed engine (41_step_cycle R172); observing has no effect and needs no entry. -/
inductive HostRequest where
  | step (resume : Bool)
  | run
  | deliverInput (v : Int)
  | reset
  deriving DecidableEq, Repr

/-- The machine. The first six fields are the engine's (10_state section 1); `cfg` is fixed at construction; the others
are the model's own, for the host and the collaborators (logs 8 to 14 and 19). -/
structure State where
  /-- The accumulator (10_state R30, R31). -/
  acc : Word
  /-- The program counter, 0..100 (10_state R33, R34). -/
  pc : Nat
  /-- Memory (10_state R37). -/
  mem : Memory
  /-- The original code image (10_state R39). -/
  image : Memory
  /-- The status latch (10_state R41, R42). -/
  status : Status
  /-- The instrumentation record (10_state R44). -/
  instr : Instrumentation
  /-- The configuration (00_scope R7, R8). -/
  cfg : EngineConfig
  /-- The resume flag of the step request now served (41_step_cycle R150; log 13). -/
  resume : Bool
  /-- The integers the input producer is known to return next, oldest first (45_io_halt R211; log 8). -/
  inputs : List Int
  /-- How many integers the input producer has returned (10_state R43; log 8). -/
  inputPos : Nat
  /-- How many free booleans have been drawn for unspecified traces (41_step_cycle R156; log 10). -/
  freeCount : Nat
  /-- Everything exchanged with the collaborators, oldest first (41_step_cycle R159; log 19). -/
  events : List Event
  /-- The host's operations still to come, oldest first (41_step_cycle R172; log 12). -/
  script : List HostRequest
  /-- What the host got back from the most recent operation (log 14). -/
  reply : Reply
  deriving DecidableEq, Repr

/-- Why a step never completes: the engine is stuck inside it (45_io_halt R211, R215; 70_reset_and_hazards R273; D25, U8;
log 9). All are safe: the run is not over, and nothing is claimed of what comes after. -/
inductive Fault where
  /-- Raised by INP in Blocking mode when the producer never answers (45_io_halt R211). Safe. -/
  | inputNeverArrives
  /-- Raised by OUT and HLT when the output consumer never returns (45_io_halt R215). Safe. -/
  | outputNeverReturns
  /-- Raised by a step of the engine when the trace consumer never returns (70_reset_and_hazards R273). Safe. -/
  | traceNeverReturns
  deriving DecidableEq, Repr

/-- Why a request is refused. All are safe: the spec gives these requests no meaning and asks a model to refuse them. -/
inductive Refusal where
  /-- Raised by an arm of `exec` for an instruction without a meaning; no arm is left so. Safe. -/
  | notModelled (mnemonic : String)
  /-- A step or run requested when halted (41_step_cycle R163, D2). Safe. -/
  | stepWhenHalted
  /-- A step or run requested when faulted (41_step_cycle R163, D2). Safe. -/
  | stepWhenFaulted
  /-- A step or run requested while input is awaited (41_step_cycle R163, D3). Safe. -/
  | stepWhileAwaitingInput
  /-- `DeliverInput` when no input is awaited (41_step_cycle R165, D3). Safe. -/
  | inputNotAwaited
  /-- `DeliverInput` in Blocking mode (41_step_cycle R165, D3). Safe. -/
  | deliveryInBlockingMode
  /-- An image that is not 100 integers in 0..999 (10_state R39, D15). Safe. -/
  | badImage
  /-- A DAT whose argument is outside -999..999 emits no word to execute (40_assembler R127). Safe. -/
  | datArgumentOutOfRange
  deriving DecidableEq, Repr

/-- What a step answers. -/
abbrev Result := Host.Outcome State Fault Refusal

/-- The configuration of the state after reset: DESIGN CHOICE values for what a constructor of an engine chooses (logs 4,
5, 9), and opaque constants for what the spec leaves open (log 6). -/
def EngineConfig.atReset : EngineConfig where
  inputMode := .blocking
  traceThreshold := .high
  fetchInReadSet := Config.fetchInReadSet
  haltMessage := Config.haltMessage
  producerAnswers := true
  outputReturns := true
  traceReturns := true

/-- The machine right after reset (10_state R50, R51; 70_reset_and_hazards R260): `pc = 0`, `acc = 0`, memory equal to the
image, status Ready, instrumentation cleared. The image is that of an empty source, all zeros (DESIGN CHOICE, log 3). -/
def State.reset : State where
  acc := 0
  pc := 0
  mem := []
  image := []
  status := .ready
  instr := .cleared
  cfg := .atReset
  resume := false
  inputs := []
  inputPos := 0
  freeCount := 0
  events := []
  script := []
  reply := .nothing

end Sys2Proof.Machine
end

