-- ==== Sys2Proof/Machine/Ops.lean ====
section
/-! DEFINITION. The primitives of 00_scope R15 over memory, the accumulator, the collaborators and the status latch, and
the fatal error as one shared operation (60_exceptions R230, R236). -/

namespace Sys2Proof.Machine

/-- The word at an address (20_memory R66). -/
def Memory.get : Memory → Nat → Word
  | [], _ => Memory.unlisted
  | (b, w) :: rest, a => if b = a then w else Memory.get rest a

/-- Memory without a cell at `a`, which then reads as unlisted. -/
def Memory.erase (m : Memory) (a : Nat) : Memory := m.filter fun c => decide (c.1 ≠ a)

/-- Memory with a cell put in its place by address. -/
def Memory.insert : Memory → Nat → Word → Memory
  | [], a, w => [(a, w)]
  | (b, x) :: rest, a, w => if a < b then (a, w) :: (b, x) :: rest else (b, x) :: Memory.insert rest a w

/-- Memory with the word at `a` replaced (20_memory R66), in canonical form. -/
def Memory.set (m : Memory) (a : Nat) (w : Word) : Memory :=
  if w = Memory.unlisted then Memory.erase m a else Memory.insert (Memory.erase m a) a w

/-- The memory whose words from address `a` on are those of the list (20_memory R74: word `i` becomes `mem[i]`). -/
def Memory.ofWords : Nat → List Word → Memory
  | _, [] => []
  | a, w :: rest => if w = Memory.unlisted then Memory.ofWords (a + 1) rest else (a, w) :: Memory.ofWords (a + 1) rest

/-- A set with an address added (41_step_cycle R175: "A set is a set"). -/
def AddrSet.insert : AddrSet → Nat → AddrSet
  | [], a => [a]
  | b :: rest, a => if a < b then a :: b :: rest else if a = b then b :: rest else b :: AddrSet.insert rest a

/-- An event handed to or taken from a collaborator. -/
def emit (e : Event) (s : State) : State := { s with events := s.events ++ [e] }

/-- `Trace(level, kind)` (00_scope R15). -/
def trace (level : TraceLevel) (kind : TraceKind) (s : State) : State := emit (.trace level kind) s

/-- The value `MemRead(addr, 1)` returns (00_scope R15). -/
def memValue (addr : Nat) (s : State) : Word := s.mem.get addr

/-- What `MemRead(addr, 1)` and a counted `Fetch` record (00_scope R15). -/
def noteMemRead (addr : Nat) (s : State) : State :=
  { s with instr := { s.instr with memReads := s.instr.memReads.insert addr } }

/-- `MemWrite(addr, 1, v)` (00_scope R15). -/
def memWrite (addr : Nat) (v : Word) (s : State) : State :=
  { s with mem := s.mem.set addr v, instr := { s.instr with memWrites := s.instr.memWrites.insert addr } }

/-- What `AccRead()` records; the value it returns is `s.acc` (00_scope R15). -/
def noteAccRead (s : State) : State := { s with instr := { s.instr with accRead := true } }

/-- `AccWrite(z)`: every write to the accumulator caps (00_scope R15, 10_state R31). -/
def accWrite (z : Int) (s : State) : State :=
  { s with acc := cap z, instr := { s.instr with accWritten := true } }

/-- `pc <- t` (00_scope R14). -/
def setPc (t : Nat) (s : State) : State := { s with pc := t }

/-- The integer `Input()` returns: the next of those known, else a free value, and none from a producer that never
answers (45_io_halt R211, R213; D25, U7; logs 8 and 9). -/
def nextInput (s : State) : Option Int :=
  match s.inputs with
  | v :: _ => some v
  | [] => if s.cfg.producerAnswers then some (Config.freeInput s.inputPos) else none

/-- What `Input()` leaves when it returned `v`: one element of the stream is consumed (45_io_halt R211). -/
def consumeInput (v : Int) (s : State) : State :=
  emit (.inputTaken v) { s with inputs := s.inputs.tail, inputPos := s.inputPos + 1 }

/-- The low-verbosity trace of an arithmetic or branch instruction (41_step_cycle R156). -/
def teach (i : Instr) (operands : List Word) (result : Nat) (s : State) : State :=
  trace .low (.teaching i operands result) s

/-- The low-verbosity trace of an instruction for which it is not stated: a free boolean says whether it is emitted
(41_step_cycle R156, U13; log 10). -/
def maybeTeach (i : Instr) (operands : List Word) (result : Nat) (s : State) : State :=
  { s with
    freeCount := s.freeCount + 1
    events := if Config.freeTrace s.freeCount then s.events ++ [.trace .low (.teaching i operands result)] else s.events }

/-- The status a step's outcome leaves (41_step_cycle R157). -/
def StepOutcome.status : StepOutcome → Status
  | .continued => .ready
  | .halted _ => .halted
  | .awaitingInput r => .awaitingInput r

/-- The end of a step: the outcome is latched and returned to the host (41_step_cycle R157). -/
def finish (o : StepOutcome) (s : State) : State := { s with status := o.status, reply := .outcome o }

/-- `raise Fatal(kind, addr, value)`: taking the machine's one exception. The step ends with no outcome, the triple is
latched and handed to the caller, and control goes nowhere inside the machine (60_exceptions R230, R236, R237). -/
def raiseFatal (kind : FatalKind) (addr : Nat) (value : Option Word) (s : State) : State :=
  { s with status := .faulted kind addr value, reply := .fatal kind addr value }

/-- The address the instruction now executed was fetched from, "which equals `pc - 1`" once `pc` is advanced
(60_exceptions R230; log 16). -/
def fetchedFrom (s : State) : Nat := s.pc - 1

/-- The body of a format A instruction under the defensive check of its operand address (60_exceptions R234, D26): an
address outside 0..99 is a fatal error, which no decoded word raises. -/
def withAddr (i : Instr) (addr : Nat) (s : State) (body : State) : State :=
  if addrValid addr then body else raiseFatal .addressOutOfRange (fetchedFrom s) (some (encode i)) s

end Sys2Proof.Machine
end

