-- ==== Sys2Proof/Machine/Arith.lean ====
section
/-! DEFINITION. ADD and SUB (42_arithmetic). In every body `pc` is already advanced past the instruction. -/

namespace Sys2Proof.Machine

/-- The shared body of ADD and SUB: read the word, read the accumulator, write the capped result, trace
(42_arithmetic R180, R182). -/
def arith (i : Instr) (op : Int → Int → Int) (addr : Nat) (s : State) : State :=
  let m := memValue addr s
  let x := s.acc
  let t := accWrite (op x.val m.val) (noteAccRead (noteMemRead addr s))
  finish .continued (teach i [x, m] t.acc.val t)

/-- ADD: `acc <- cap(acc + mem[addr])` (42_arithmetic R180). -/
def execAdd (addr : Nat) (s : State) : Result :=
  .next (withAddr (.add addr) addr s (arith (.add addr) (fun x m => x + m) addr s))

/-- SUB: `acc <- cap(acc - mem[addr])` (42_arithmetic R182). -/
def execSub (addr : Nat) (s : State) : Result :=
  .next (withAddr (.sub addr) addr s (arith (.sub addr) (fun x m => x - m) addr s))

end Sys2Proof.Machine
end

