-- ==== Sys2Proof/Machine/Branch.lean ====
section
/-! DEFINITION. BRA, BRZ and BRP (44_branch). In every body `pc` already holds `a + 1`, and a taken branch overwrites it. -/

namespace Sys2Proof.Machine

/-- The shared end of the branches: the target overwrites `pc` if the branch is taken, and one trace is emitted
(44_branch R200, R202, R204, R206). -/
def branch (i : Instr) (operands : List Word) (taken : Bool) (addr : Nat) (s : State) : State :=
  let t := if taken then setPc addr s else s
  finish .continued (teach i operands t.pc t)

/-- BRA: `pc <- addr`; the accumulator is not read (44_branch R200). -/
def execBra (addr : Nat) (s : State) : Result :=
  .next (withAddr (.bra addr) addr s (branch (.bra addr) [] true addr s))

/-- BRZ: `pc <- addr` if the accumulator is 0 (44_branch R202). -/
def execBrz (addr : Nat) (s : State) : Result :=
  .next (withAddr (.brz addr) addr s (branch (.brz addr) [s.acc] (isZero s.acc) addr (noteAccRead s)))

/-- BRP: `pc <- addr` if the accumulator is below 500 (44_branch R204). -/
def execBrp (addr : Nat) (s : State) : Result :=
  .next (withAddr (.brp addr) addr s (branch (.brp addr) [s.acc] (isPositive s.acc) addr (noteAccRead s)))

end Sys2Proof.Machine
end

