-- ==== Sys2Proof/Machine/Illegal.lean ====
section
/-! DEFINITION. The illegal words: each takes the fatal error InvalidInstruction of its class (60_exceptions R231, R236,
R237). In every body `pc` is already advanced past the word. -/

namespace Sys2Proof.Machine

/-- The class of an illegal word, and none for a legal one (60_exceptions R231). -/
def classOf (w : Word) : Option IllegalClass :=
  if 1 ≤ w.val ∧ w.val ≤ 99 then some .low0xx
  else if 400 ≤ w.val ∧ w.val ≤ 499 then some .unassigned4xx
  else if w.val = 900 then some .reserved900
  else if 903 ≤ w.val then some .high9xx
  else none

/-- `Fatal(InvalidInstruction(class), a, w)` (60_exceptions R231). -/
def invalidInstruction (c : IllegalClass) (w : Word) (s : State) : Result :=
  .next (raiseFatal (.invalidInstruction c) (fetchedFrom s) (some w) s)

/-- A word in 1..99 (60_exceptions R231). -/
def execIllegalLow0xx (w : Word) (s : State) : Result := invalidInstruction .low0xx w s

/-- A word in 400..499 (60_exceptions R231). -/
def execIllegalUnassigned4xx (w : Word) (s : State) : Result := invalidInstruction .unassigned4xx w s

/-- The word 900 (60_exceptions R231, 90_conflicts C7). -/
def execIllegalReserved900 (s : State) : Result := invalidInstruction .reserved900 900 s

/-- A word in 903..999 (60_exceptions R231). -/
def execIllegalHigh9xx (w : Word) (s : State) : Result := invalidInstruction .high9xx w s

end Sys2Proof.Machine
end

