-- ==== Sys2Proof/Machine/IoHalt.lean ====
section
/-! DEFINITION. INP, OUT and HLT (45_io_halt). In every body `pc` is already advanced past the instruction. -/

namespace Sys2Proof.Machine

/-- INP (45_io_halt R210 to R213). Blocking: `acc <- cap(enc(v))` for the producer's next `v`, in the same step; a
producer that never answers leaves the step stuck. Suspension: the accumulator is untouched and the step ends awaiting
input with the request's resume flag (10_state R42). -/
def execInp (s : State) : Result :=
  match s.cfg.inputMode with
  | .blocking =>
    match nextInput s with
    | some v =>
      let t := accWrite (enc v) (consumeInput v s)
      .next (finish .continued (maybeTeach .inp [] t.acc.val t))
    | none => .fault .inputNeverArrives
  | .suspension => .next (finish (.awaitingInput s.resume) (maybeTeach .inp [] s.acc.val s))

/-- OUT: `Output(dec(acc))`, one event (45_io_halt R214); stuck if the consumer never returns (45_io_halt R215). -/
def execOut (s : State) : Result :=
  if s.cfg.outputReturns then
    .next (finish .continued (maybeTeach .out [s.acc] s.acc.val (emit (.output (dec s.acc)) (noteAccRead s))))
  else .fault .outputNeverReturns

/-- HLT: the completion message, exactly once, then the outcome halted(ExplicitHalt) (45_io_halt R218 to R221); stuck if
the consumer never returns (45_io_halt R215). -/
def execHlt (s : State) : Result :=
  if s.cfg.outputReturns then
    .next (finish (.halted .explicitHalt) (maybeTeach .hlt [] s.pc (emit (.completion s.cfg.haltMessage) s)))
  else .fault .outputNeverReturns

end Sys2Proof.Machine
end

