-- ==== Sys2Proof/Machine/LoadStore.lean ====
section
/-! DEFINITION. STA and LDA (43_load_store). In every body `pc` is already advanced past the instruction. -/

namespace Sys2Proof.Machine

/-- STA: `mem[addr] <- acc`, unchanged (43_load_store R190). -/
def execSta (addr : Nat) (s : State) : Result :=
  let t := memWrite addr s.acc (noteAccRead s)
  .next (withAddr (.sta addr) addr s (finish .continued (maybeTeach (.sta addr) [s.acc] s.acc.val t)))

/-- LDA: `acc <- mem[addr]`; the accumulator is not read (43_load_store R192). -/
def execLda (addr : Nat) (s : State) : Result :=
  let m := memValue addr s
  let t := accWrite m.val (noteMemRead addr s)
  .next (withAddr (.lda addr) addr s (finish .continued (maybeTeach (.lda addr) [m] t.acc.val t)))

end Sys2Proof.Machine
end

