-- ==== Sys2Proof/Machine/Data.lean ====
section
/-! DEFINITION. DAT when its word is reached by execution (30_encoding R88; 70_reset_and_hazards R271; log 15). -/

namespace Sys2Proof.Machine

/-- What the engine does with a word, whatever source line it came from (30_encoding R83, R88). -/
def execWord (w : Word) (s : State) : Result :=
  match decode w with
  | .hlt => execHlt s
  | .illegalLow0xx x => execIllegalLow0xx x s
  | .add addr => execAdd addr s
  | .sub addr => execSub addr s
  | .sta addr => execSta addr s
  | .illegalUnassigned4xx x => execIllegalUnassigned4xx x s
  | .lda addr => execLda addr s
  | .bra addr => execBra addr s
  | .brz addr => execBrz addr s
  | .brp addr => execBrp addr s
  | .illegalReserved900 => execIllegalReserved900 s
  | .inp => execInp s
  | .out => execOut s
  | .illegalHigh9xx x => execIllegalHigh9xx x s
  | .dat _ => .refused .datArgumentOutOfRange -- dead: no word decodes to DAT (30_encoding R91)

/-- DAT: the directive places `enc(v)` (40_assembler R128), and a program that runs into that word executes it by the
decode table (30_encoding R88). DEDUCED (log 15), safe: no fetched word decodes to DAT, so no run uses this meaning. -/
def execDat (v : Int) (s : State) : Result :=
  if datOk v then execWord (encode (.dat v)) s else .refused .datArgumentOutOfRange

end Sys2Proof.Machine
end

