-- ==== Sys2Proof/Machine/Dispatch.lean ====
section
/-! DEFINITION. The one dispatch from an instruction to its meaning: phase 5 of a step (41_step_cycle R155). -/

namespace Sys2Proof.Machine

def exec (i : Instr) (s : State) : Host.Outcome State Fault Refusal :=
  match i with
  | .hlt => Sys2Proof.Machine.execHlt s
  | .illegalLow0xx w => Sys2Proof.Machine.execIllegalLow0xx w s
  | .add addr => Sys2Proof.Machine.execAdd addr s
  | .sub addr => Sys2Proof.Machine.execSub addr s
  | .sta addr => Sys2Proof.Machine.execSta addr s
  | .illegalUnassigned4xx w => Sys2Proof.Machine.execIllegalUnassigned4xx w s
  | .lda addr => Sys2Proof.Machine.execLda addr s
  | .bra addr => Sys2Proof.Machine.execBra addr s
  | .brz addr => Sys2Proof.Machine.execBrz addr s
  | .brp addr => Sys2Proof.Machine.execBrp addr s
  | .illegalReserved900 => Sys2Proof.Machine.execIllegalReserved900 s
  | .inp => Sys2Proof.Machine.execInp s
  | .out => Sys2Proof.Machine.execOut s
  | .illegalHigh9xx w => Sys2Proof.Machine.execIllegalHigh9xx w s
  | .dat v => Sys2Proof.Machine.execDat v s

end Sys2Proof.Machine
end

