-- ==== Sys2Proof/Machine/Fetch.lean ====
section
/-! DEFINITION. Phases 1 to 3 of a step: announce, fetch, advance (41_step_cycle R151 to R153), and the fetch past the end
of memory (60_exceptions R233). -/

namespace Sys2Proof.Machine

/-- Phase 1: the instrumentation is cleared and the fetch address is traced at level high (41_step_cycle R151). -/
def announce (s : State) : State := trace .high (.fetchAddress s.pc) { s with instr := .cleared }

/-- The word at the program counter, as `Fetch(pc)` returns it (00_scope R15, 20_memory R72). -/
def fetchedWord (s : State) : Word := s.mem.get s.pc

/-- What `Fetch(pc)` records: the fetch address, only if `FETCH_IN_READ_SET` (00_scope R15, 41_step_cycle R175). -/
def noteFetch (s : State) : State :=
  { s with instr := { s.instr with
      memReads := if s.cfg.fetchInReadSet then s.instr.memReads.insert s.pc else s.instr.memReads } }

/-- The two traces of phase 2: the instruction value and the dump, both before the increment (41_step_cycle R152). -/
def traceFetch (s : State) : State :=
  trace .medium (.dump s.mem s.acc s.pc) (trace .medium (.instructionValue (fetchedWord s)) s)

/-- Phase 3: `pc <- a + 1`, for every fetched word, with no wrap (41_step_cycle R153, 10_state R34). -/
def advance (s : State) : State := setPc (s.pc + 1) s

/-- The state in which the fetched word is decoded and executed: phases 1 to 3 done (41_step_cycle R158). -/
def afterFetch (s : State) : State := advance (traceFetch (noteFetch (announce s)))

/-- A step requested past the end of memory: announced, then the fatal error `(FetchOutOfRange, 100, none)`, and nothing
else (60_exceptions R233, 41_step_cycle R152). -/
def fetchPastEnd (s : State) : State := raiseFatal .fetchOutOfRange Config.memSize none (announce s)

end Sys2Proof.Machine
end

