-- ==== Sys2Proof/Machine/HostOps.lean ====
section
/-! DEFINITION. The host's operations other than stepping: deliver an input, reset, construct, observe (41_step_cycle R164,
R172; 70_reset_and_hazards R260 to R265). -/

namespace Sys2Proof.Machine

/-- `DeliverInput(v)`: the awaited value reaches the accumulator and the resume flag is handed back; refused when nothing
is awaited and in Blocking mode (41_step_cycle R164, R165, R176). -/
def deliverInput (v : Int) (s : State) : Result :=
  match s.cfg.inputMode with
  | .blocking => .refused .deliveryInBlockingMode
  | .suspension =>
    match s.status with
    | .awaitingInput r => .next { accWrite (enc v) s with status := .ready, reply := .resume r }
    | _ => .refused .inputNotAwaited

/-- `Reset()`, allowed in every status: the counter and the accumulator are 0, memory is the image again, nothing is
awaited, the instrumentation is cleared; the configuration and the collaborators keep their places, and no output and no
completion message is emitted (70_reset_and_hazards R260 to R263). DESIGN CHOICE (log 23), unsafe: no trace event is emitted
either; R260 says that whether one is, is not stated. -/
def hostReset (s : State) : State :=
  { s with acc := 0, pc := 0, mem := s.image, status := .ready, instr := .cleared, reply := .nothing }

/-- The words of a sequence of integers, and none if one of them is outside 0..999 (10_state R39). -/
def wordsOf : List Int → Option (List Word)
  | [] => some []
  | z :: rest => if 0 ≤ z ∧ z < Config.wordMod then (wordsOf rest).map (cap z :: ·) else none

/-- `Construct`: an engine from an image of exactly 100 integers in 0..999, a configuration and the integers the input
producer is known to return; its first state is the reset state (10_state R39, R51; 70_reset_and_hazards R265). -/
def construct (image : List Int) (cfg : EngineConfig) (inputs : List Int) : Result :=
  match wordsOf image with
  | none => .refused .badImage
  | some ws =>
    if ws.length = Config.memSize then
      .next { State.reset with
        mem := Memory.ofWords 0 ws, image := Memory.ofWords 0 ws, cfg := cfg, inputs := inputs }
    else .refused .badImage

/-- What the host may observe between steps (41_step_cycle R172). -/
structure Observation where
  acc : Word
  pc : Nat
  mem : Memory
  status : Status
  instr : Instrumentation
  deriving DecidableEq, Repr

/-- Observing has no effect (41_step_cycle R172). -/
def observe (s : State) : Observation := ⟨s.acc, s.pc, s.mem, s.status, s.instr⟩

/-- An event of level `L` is shown by a consumer with threshold `T` when `1 <= L <= T` (41_step_cycle R173); events that
are no trace events are not filtered (45_io_halt R214). -/
def Event.shownAt (threshold : TraceLevel) : Event → Bool
  | .trace level _ => decide (1 ≤ level.num) && decide (level.num ≤ threshold.num)
  | _ => true

/-- What the engine's consumers show of its events (41_step_cycle R173). -/
def shownEvents (s : State) : List Event := s.events.filter (Event.shownAt s.cfg.traceThreshold)

end Sys2Proof.Machine
end

