-- ==== Sys2Proof/Machine/Cycle.lean ====
section
/-! DEFINITION. The step of the engine and the host operations that request steps (41_step_cycle R150, R158, R163, R166,
R168, R172). -/

namespace Sys2Proof.Machine

/-- `Step(resume)` with the flag `s.resume`: refused unless the status is Ready (41_step_cycle R163), else one fetch, one
decode, one execute (41_step_cycle R158). Every step calls the trace consumer first (41_step_cycle R151), so one that never
returns leaves every step stuck there (70_reset_and_hazards R273, D25; log 9). -/
def engineStep (s : State) : Result :=
  match s.status with
  | .ready =>
    if s.cfg.traceReturns then
      if s.pc < Config.memSize then exec (decode (fetchedWord s)) (afterFetch s) else .next (fetchPastEnd s)
    else .fault .traceNeverReturns
  | .halted => .refused .stepWhenHalted
  | .awaitingInput _ => .refused .stepWhileAwaitingInput
  | .faulted _ _ _ => .refused .stepWhenFaulted

/-- One turn of `Run()`: a step with `resume = true`; the run goes on while the outcome is `continued`, and only then does
the request stay and the host gets nothing back yet (41_step_cycle R168, R171). -/
def runTurn (rest : List HostRequest) (s : State) : Result :=
  match engineStep { s with resume := true, script := rest } with
  | .next t => if t.status = .ready then .next { t with script := .run :: rest, reply := .nothing } else .next t
  | .fault r => .fault r
  | .refused r => .refused r

/-- The host's next operation is served: the oldest one of the script, and with an empty script a step request with the
flag `s.resume` (41_step_cycle R172; log 12). -/
def serve (s : State) : Result :=
  match s.script with
  | [] => engineStep s
  | .step r :: rest => engineStep { s with resume := r, script := rest }
  | .run :: rest => runTurn rest s
  | .deliverInput v :: rest => deliverInput v { s with script := rest }
  | .reset :: rest => .next (hostReset { s with script := rest })

/-- The state in which a word is the next one fetched: a step may be requested and is the next request, `pc` is in 0..99,
and the word stands at `pc` (log 21). A number above 999 is no word and is not stored. -/
def placeWord (n : Nat) (s : State) : State :=
  let a := if s.pc < Config.memSize then s.pc else 0
  { s with
    pc := a
    status := .ready
    script := []
    mem := match Word.ofNat? n with
      | some w => s.mem.set a w
      | none => s.mem }

end Sys2Proof.Machine
end

