-- ==== Sys2Proof/Machine/Step.lean ====
section
/-! DEFINITION. The step of the whole machine, and where a step's next word is placed. -/

namespace Sys2Proof.Machine

/-- One step: the host's next operation (41_step_cycle R172), which is one engine step unless the script says otherwise. -/
def step (s : State) : Host.Outcome State Fault Refusal := serve s

/-- The state with the word whose number is written by the low `nbits` bits of `w` placed where the next step fetches
(logs 18, 21). -/
def State.withFetchWord (s : State) (nbits w : Nat) : State := placeWord (w % 2 ^ nbits) s

end Sys2Proof.Machine
end

