-- ==== Sys2Proof/Machine/Assembler.lean ====
section
/-! DEFINITION. The assembler: a pure function from source lines to a 100-word image or to errors, in two passes
(40_assembler R100 to R137; the algorithm is R135). -/

namespace Sys2Proof.Machine

/-- A source line, without a line terminator (40_assembler R102; log 22). -/
abbrev Line := List Char

/-- A token: a non-empty run of characters without whitespace and `#` (40_assembler R104). -/
abbrev Token := List Char

/-- The eleven mnemonics (40_assembler R108). -/
inductive Mnemonic where
  | hlt
  | add
  | sub
  | sta
  | lda
  | bra
  | brz
  | brp
  | inp
  | out
  | dat
  deriving DecidableEq, Repr

/-- An instruction record (10_state R46, 40_assembler R113). -/
structure Record where
  mnemonic : Mnemonic
  /-- The argument token exactly as written, or absent. -/
  arg : Option Token
  /-- The original line text. -/
  text : Line
  /-- The 0-based line index (40_assembler R101). -/
  line : Nat
  deriving DecidableEq, Repr

/-- An entry of the label table (10_state R45): the index it is bound to and the line that bound it. -/
structure LabelEntry where
  name : Token
  index : Nat
  line : Nat
  deriving DecidableEq, Repr

/-- Why an argument is bad (40_assembler R123, R127). -/
inductive BadReason where
  | tooLong
  | notDecimal
  | outOfRange
  deriving DecidableEq, Repr

/-- The assembly errors; lines are reported 1-based (40_assembler R101, R133). -/
inductive AsmError where
  | invalidLine (line : Nat) (text : Line)
  | invalidMnemonic (line : Nat) (token : Token)
  | duplicateLabel (line : Nat) (label : Token) (firstLine : Nat)
  | programTooLong (line : Nat)
  | unexpectedArgument (line : Nat) (mnemonic : Mnemonic) (arg : Token)
  | missingArgument (line : Nat) (mnemonic : Mnemonic)
  | badArgument (line : Nat) (mnemonic : Mnemonic) (arg : Token) (reason : BadReason)
  deriving DecidableEq, Repr

/-- `ERROR_MODE` (00_scope R8, 40_assembler R116, R130). -/
inductive ErrorMode where
  | first
  | all
  deriving DecidableEq, Repr

/-- The assembler's transient state (10_state R45 to R48; log 20). -/
structure AsmState where
  labels : List LabelEntry
  records : List Record
  errors : List AsmError
  out : List Word
  deriving DecidableEq, Repr

/-- Every assembly call starts with everything empty (10_state R48). -/
def AsmState.empty : AsmState := ⟨[], [], [], []⟩

/-- The assembler's answer: the image and the used length, or the errors and no image (10_state R47, 40_assembler R134). -/
inductive AsmResult where
  | success (out : List Word) (used : Nat)
  | failure (errors : List AsmError)
  deriving DecidableEq, Repr

/-- Comment removal: the first `#` and everything after it goes (40_assembler R103). -/
def stripComment (line : Line) : Line := line.takeWhile fun c => decide (c ≠ '#')

/-- Whitespace: space, HT, LF, VT, FF, CR (40_assembler R104, D21). -/
def isBlank (c : Char) : Bool := c.toNat == 32 || (decide (9 ≤ c.toNat) && decide (c.toNat ≤ 13))

/-- Leading and trailing whitespace removed (40_assembler R104). -/
def strip (line : Line) : Line := ((line.dropWhile isBlank).reverse.dropWhile isBlank).reverse

/-- The tokens of a text whose characters up to here that are not yet in a token are `held` (40_assembler R104). -/
def tokensFrom (held : Token) : Line → List Token
  | [] => if held = [] then [] else [held]
  | c :: rest =>
    if isBlank c then
      if held = [] then tokensFrom [] rest else held :: tokensFrom [] rest
    else tokensFrom (held ++ [c]) rest

/-- The text split at every maximal run of whitespace (40_assembler R104). -/
def tokens (line : Line) : List Token := tokensFrom [] line

/-- Upper case, for the ASCII letters a to z only (40_assembler R108, D20). -/
def upperChar (c : Char) : Char :=
  if 97 ≤ c.toNat ∧ c.toNat ≤ 122 then Char.ofNat (c.toNat - 32) else c

/-- A token in upper case (40_assembler R108). -/
def upper (t : Token) : Token := t.map upperChar

/-- The mnemonics' spellings (40_assembler R108). -/
def mnemonicTable : List (Token × Mnemonic) :=
  [(['H', 'L', 'T'], .hlt), (['A', 'D', 'D'], .add), (['S', 'U', 'B'], .sub), (['S', 'T', 'A'], .sta),
   (['L', 'D', 'A'], .lda), (['B', 'R', 'A'], .bra), (['B', 'R', 'Z'], .brz), (['B', 'R', 'P'], .brp),
   (['I', 'N', 'P'], .inp), (['O', 'U', 'T'], .out), (['D', 'A', 'T'], .dat)]

/-- The mnemonic a token is, in any letter case (40_assembler R108). -/
def mnemonicOf (t : Token) : Option Mnemonic :=
  (mnemonicTable.find? fun row => decide (row.1 = upper t)).map Prod.snd

/-- The shape of a line by token count: label, mnemonic token, argument; none for four tokens or more (40_assembler R106,
R107). -/
def shape : List Token → Option (Option Token × Token × Option Token)
  | [t0] => some (none, t0, none)
  | [t0, t1] => if (mnemonicOf t0).isSome then some (none, t0, some t1) else some (some t0, t1, none)
  | [t0, t1, t2] => some (some t0, t1, some t2)
  | _ => none

/-- The entry a name is bound to; names are compared exactly (40_assembler R110). -/
def lookupLabel (labels : List LabelEntry) (name : Token) : Option LabelEntry :=
  labels.find? fun e => decide (e.name = name)

/-- A label bound to the index the line's record will have (40_assembler R111). -/
def bindLabel (label : Option Token) (ln : Nat) (st : AsmState) : List LabelEntry :=
  match label with
  | none => st.labels
  | some name => st.labels ++ [⟨name, st.records.length, ln⟩]

/-- Pass 1 on one line: its record and its label, or its first error in the order token count, mnemonic, duplicate label,
program length (40_assembler R105 to R115). -/
def scanLine (ln : Nat) (line : Line) (st : AsmState) : Except AsmError AsmState :=
  let s := strip (stripComment line)
  if s = [] then .ok st
  else
    match shape (tokens s) with
    | none => .error (.invalidLine (ln + 1) s)
    | some (label, m, arg) =>
      match mnemonicOf m with
      | none => .error (.invalidMnemonic (ln + 1) m)
      | some op =>
        match label.bind (lookupLabel st.labels) with
        | some e => .error (.duplicateLabel (ln + 1) e.name (e.line + 1))
        | none =>
          if Config.memSize ≤ st.records.length then .error (.programTooLong (ln + 1))
          else .ok { st with labels := bindLabel label ln st, records := st.records ++ [⟨op, arg, line, ln⟩] }

/-- An error is noted (40_assembler R116, R130). -/
def noteError (e : AsmError) (st : AsmState) : AsmState := { st with errors := st.errors ++ [e] }

/-- Pass 1 over the lines from index `ln` on: it stops at the first error in mode First and goes on in mode All
(40_assembler R116). -/
def pass1 (mode : ErrorMode) : Nat → List Line → AsmState → AsmState
  | _, [], st => st
  | ln, line :: rest, st =>
    match scanLine ln line st with
    | .ok t => pass1 mode (ln + 1) rest t
    | .error e =>
      match mode with
      | .first => noteError e st
      | .all => pass1 mode (ln + 1) rest (noteError e st)

/-- The character of a decimal digit. -/
def digitChar (n : Nat) : Char := Char.ofNat (48 + n % 10)

/-- A label's index as a two-digit decimal string (40_assembler R120). -/
def twoDigits (n : Nat) : Token := [digitChar (n / 10), digitChar n]

/-- An ASCII digit `0` to `9` (40_assembler R123). -/
def isDigit (c : Char) : Bool := decide (48 ≤ c.toNat) && decide (c.toNat ≤ 57)

/-- The number a string of digits writes. -/
def decimalValue (t : Token) : Nat := t.foldl (fun n c => 10 * n + (c.toNat - 48)) 0

/-- The number of an optional `-` followed by one or more ASCII digits, and none for anything else (40_assembler R127). -/
def signedValue (t : Token) : Option Int :=
  match t with
  | '-' :: ds => if ds ≠ [] ∧ ds.all isDigit then some (-(decimalValue ds : Int)) else none
  | ds => if ds ≠ [] ∧ ds.all isDigit then some (decimalValue ds) else none

/-- Label substitution: an argument that is exactly a label's name becomes the label's index, before any validation
(40_assembler R120, D19). -/
def substitute (labels : List LabelEntry) (arg : Option Token) : Option Token :=
  arg.map fun a =>
    match lookupLabel labels a with
    | some e => twoDigits e.index
    | none => a

/-- How a mnemonic is emitted: a fixed code, a template with an operand, or the data directive (40_assembler R121, R124,
R126). -/
inductive Emission where
  | fixed (i : Instr)
  | templated (opDigit : Nat)
  | data
  deriving DecidableEq, Repr

/-- The emission of each mnemonic (30_encoding R84). -/
def Mnemonic.emission : Mnemonic → Emission
  | .hlt => .fixed .hlt
  | .add => .templated 1
  | .sub => .templated 2
  | .sta => .templated 3
  | .lda => .templated 5
  | .bra => .templated 6
  | .brz => .templated 7
  | .brp => .templated 8
  | .inp => .fixed .inp
  | .out => .fixed .out
  | .dat => .data

/-- The error of a bad argument, with the argument as written (40_assembler R133, D24). -/
def badArg (r : Record) (reason : BadReason) : AsmError :=
  .badArgument (r.line + 1) r.mnemonic (r.arg.getD []) reason

/-- A templated mnemonic's word: exactly one argument of one or two digits, the length tested first (40_assembler R122 to
R124). -/
def emitTemplated (opDigit : Nat) (r : Record) : Option Token → Except AsmError Word
  | none => .error (.missingArgument (r.line + 1) r.mnemonic)
  | some a =>
    if 2 < a.length then .error (badArg r .tooLong)
    else if a.all isDigit then .ok (cap (100 * opDigit + decimalValue a))
    else .error (badArg r .notDecimal)

/-- DAT's word: 0 without an argument, else `enc(v)` of a value in -999..999 (40_assembler R126 to R128). -/
def emitData (r : Record) : Option Token → Except AsmError Word
  | none => .ok 0
  | some a =>
    match signedValue a with
    | none => .error (badArg r .notDecimal)
    | some v => if datOk v then .ok (encode (.dat v)) else .error (badArg r .outOfRange)

/-- Pass 2 on one record: the word it emits, or its error (40_assembler R117, R120 to R128). -/
def emitRecord (labels : List LabelEntry) (r : Record) : Except AsmError Word :=
  match r.mnemonic.emission with
  | .fixed i =>
    match r.arg with
    | some a => .error (.unexpectedArgument (r.line + 1) r.mnemonic a)
    | none => .ok (encode i)
  | .templated op => emitTemplated op r (substitute labels r.arg)
  | .data => emitData r (substitute labels r.arg)

/-- Pass 2 over the records in index order: it stops at the first error in mode First and goes on in mode All
(40_assembler R130). -/
def pass2 (mode : ErrorMode) : List Record → AsmState → AsmState
  | [], st => st
  | r :: rest, st =>
    match emitRecord st.labels r with
    | .ok w => pass2 mode rest { st with out := st.out ++ [w] }
    | .error e =>
      match mode with
      | .first => noteError e st
      | .all => pass2 mode rest (noteError e st)

/-- The image: the emitted words, padded with zeros up to 100 entries (40_assembler R131). -/
def padImage (out : List Word) : List Word := out ++ List.replicate (Config.memSize - out.length) 0

/-- The answer of a finished assembly (40_assembler R131, R134). -/
def asmAnswer (st : AsmState) : AsmResult :=
  if st.errors = [] then .success (padImage st.out) st.out.length else .failure st.errors

/-- The assembler (40_assembler R135): in mode First pass 2 runs only if pass 1 found no error. -/
def assemble (mode : ErrorMode) (lines : List Line) : AsmResult :=
  let st := pass1 mode 0 lines .empty
  if mode = .first ∧ st.errors ≠ [] then .failure st.errors
  else asmAnswer (pass2 mode st.records st)

end Sys2Proof.Machine
end

