-- ==== Sys2Proof/Safety.lean ====
section
/-! DEFINITION. What the statements speak in: the invariant of the machine, where an instruction stores, which events an
output consumer and a trace consumer get, and what a step leaves to the host's side. -/

namespace Sys2Proof.Machine

/-- What the status latch says agrees with the rest of the state: input is awaited in Suspension mode only (60_exceptions
R250); an invalid instruction carries its word, of its class, fetched from `pc - 1` (60_exceptions R230, R231, R237); a
fetch past the end carries 100 and no word, and `pc = 100` (60_exceptions R233); no operand address is ever out of range
(60_exceptions R234). -/
def statusAgrees (s : State) : Prop :=
  match s.status with
  | .ready => True
  | .halted => 1 ≤ s.pc
  | .awaitingInput _ => s.cfg.inputMode = .suspension ∧ 1 ≤ s.pc
  | .faulted (.invalidInstruction c) addr (some w) => classOf w = some c ∧ addr + 1 = s.pc
  | .faulted (.invalidInstruction _) _ none => False
  | .faulted .fetchOutOfRange addr value => addr = 100 ∧ value = none ∧ s.pc = 100
  | .faulted .addressOutOfRange _ _ => False

/-- The invariant: the counter is in 0..100 (10_state R34), memory and the image are in canonical form (10_state R37, R39),
the instrumented sets are sets of addresses 0..99 (10_state R44), and the status latch agrees with the rest. -/
structure State.Inv (s : State) : Prop where
  pc : s.pc ≤ 100
  mem : s.mem.wf = true
  image : s.image.wf = true
  reads : s.instr.memReads.wf = true
  writes : s.instr.memWrites.wf = true
  status : statusAgrees s

/-- The address an instruction stores to, with the operand its meaning uses (43_load_store R190); a DAT word stores if it
executes as an STA (30_encoding R88). -/
def storeAddr : Instr → Option Nat
  | .sta addr => some addr
  | .dat v =>
    match decode (encode (.dat v)) with
    | .sta addr => some addr
    | _ => none
  | _ => none

/-- The word at an address, as a statement reads memory. -/
def wordAt (s : State) (addr : Nat) : Word := s.mem.get addr

/-- The event goes to the output consumer (45_io_halt R215). -/
def Event.isOutput : Event → Bool
  | .output _ => true
  | .completion _ => true
  | _ => false

/-- The event is a trace event (41_step_cycle R173). -/
def Event.isTrace : Event → Bool
  | .trace _ _ => true
  | _ => false

/-- The event is a low-verbosity trace (41_step_cycle R156). -/
def Event.isLowTrace : Event → Bool
  | .trace .low _ => true
  | _ => false

/-- What the output consumer has got, in order (45_io_halt R214, R218). -/
def outputs (s : State) : List Event := s.events.filter Event.isOutput

/-- What the engine's collaborators have exchanged with it besides trace events, in order. -/
def exchanges (s : State) : List Event := s.events.filter fun e => !e.isTrace

/-- Nothing outside the engine's own state changed but the events: the image, the configuration, the request's flag and the
host's script are as before. -/
structure KeepsHostSide (s t : State) : Prop where
  image : t.image = s.image
  cfg : t.cfg = s.cfg
  resume : t.resume = s.resume
  script : t.script = s.script

/-- The input stream is where it was. -/
structure KeepsInput (s t : State) : Prop where
  inputs : t.inputs = s.inputs
  inputPos : t.inputPos = s.inputPos

/-- The step ended with the outcome, which is latched and handed back (41_step_cycle R157). -/
structure EndsWith (o : StepOutcome) (t : State) : Prop where
  status : t.status = o.status
  reply : t.reply = .outcome o

/-- The step ended with the fatal error, which is latched and handed back (60_exceptions R236). -/
structure EndsFatally (kind : FatalKind) (addr : Nat) (value : Option Word) (t : State) : Prop where
  status : t.status = .faulted kind addr value
  reply : t.reply = .fatal kind addr value

/-- A fatal error changed nothing but the status latch and what is handed back (60_exceptions R237). -/
structure OnlyFatal (kind : FatalKind) (addr : Nat) (value : Option Word) (s t : State) : Prop where
  acc : t.acc = s.acc
  pc : t.pc = s.pc
  mem : ∀ a, wordAt t a = wordAt s a
  instr : t.instr = s.instr
  events : t.events = s.events
  input : KeepsInput s t
  host : KeepsHostSide s t
  ends : EndsFatally kind addr value t

/-- The events after an instruction for which a low-verbosity trace is not stated: none, or one (41_step_cycle R156). -/
def OptionalLowTrace (tail : List Event) : Prop := tail = [] ∨ ∃ k, tail = [Event.trace .low k]

/-- The instruction whose effect an instruction has when it is executed: its own, and for DAT that of its word
(30_encoding R88). -/
def effective : Instr → Instr
  | .dat v => decode (encode (.dat v))
  | i => i

/-- The instruction writes the accumulator in its own step (10_state R32). -/
def writesAcc (mode : InputMode) : Instr → Bool
  | .add _ => true
  | .sub _ => true
  | .lda _ => true
  | .inp => decide (mode = .blocking)
  | _ => false

/-- The address a branch writes to the program counter, if the instruction is a branch that is taken when the accumulator
is `acc` (10_state R35). -/
def takenTarget (acc : Word) : Instr → Option Nat
  | .bra addr => some addr
  | .brz addr => if acc.val = 0 then some addr else none
  | .brp addr => if acc.val < 500 then some addr else none
  | _ => none

/-- "Each branch/arithmetic step": the instructions for which one low-verbosity trace is stated (41_step_cycle R156). -/
def teaches : Instr → Bool
  | .add _ => true
  | .sub _ => true
  | .bra _ => true
  | .brz _ => true
  | .brp _ => true
  | _ => false

/-- The table of 41_step_cycle R175: what the instrumentation record holds after a step that executed the instruction,
where `f` is the set the fetch contributed. -/
def instrTable (mode : InputMode) (f : AddrSet) : Instr → Instrumentation
  | .hlt => ⟨false, false, f, []⟩
  | .add addr => ⟨true, true, f.insert addr, []⟩
  | .sub addr => ⟨true, true, f.insert addr, []⟩
  | .sta addr => ⟨true, false, f, [addr]⟩
  | .lda addr => ⟨false, true, f.insert addr, []⟩
  | .bra _ => ⟨false, false, f, []⟩
  | .brz _ => ⟨true, false, f, []⟩
  | .brp _ => ⟨true, false, f, []⟩
  | .inp => ⟨false, decide (mode = .blocking), f, []⟩
  | .out => ⟨true, false, f, []⟩
  | _ => ⟨false, false, f, []⟩

/-- The collaborators an instruction may call answer: the output consumer returns, and the producer of a Blocking INP has
an integer to return (45_io_halt R211, R215). -/
structure CollaboratorsAnswer (s : State) : Prop where
  output : s.cfg.outputReturns = true
  input : s.cfg.inputMode = .blocking → (nextInput s).isSome = true

/-- The engine may execute one more instruction, and that is what the host requests next (41_step_cycle R150, R163). -/
structure StepRequested (s : State) : Prop where
  ready : s.status = .ready
  script : s.script = []

/-- The engine with another trace threshold (41_step_cycle R173). -/
def withThreshold (l : TraceLevel) (s : State) : State := { s with cfg := { s.cfg with traceThreshold := l } }

/-- An answer with its next state changed. -/
def mapNext (f : State → State) : Result → Result
  | .next t => .next (f t)
  | .fault r => .fault r
  | .refused r => .refused r

/-- The same engine constructed in Suspension mode (00_scope R7). -/
def inSuspension (s : State) : State := { s with cfg := { s.cfg with inputMode := .suspension } }

/-- "Assembly: `M n` or `M label`" (42_arithmetic R180 and the other format A rules): the mnemonic is recognised, and a record
of it whose argument is one or two digits, or a label, emits the instruction's word (40_assembler R120, R123, R124). -/
structure AssemblesWithAddress (spelling : Token) (m : Mnemonic) (i : Nat → Instr) : Prop where
  recognised : mnemonicOf spelling = some m
  numeral : ∀ labels n text line, n ≠ [] → n.length ≤ 2 → n.all isDigit = true → lookupLabel labels n = none →
    emitRecord labels ⟨m, some n, text, line⟩ = .ok (encode (i (decimalValue n)))
  label : ∀ labels l e text line, lookupLabel labels l = some e → e.index < 100 →
    emitRecord labels ⟨m, some l, text, line⟩ = .ok (encode (i e.index))

/-- "Assembly: `M`, with no argument" (45_io_halt R214, R218; 40_assembler R121). -/
structure AssemblesAlone (spelling : Token) (m : Mnemonic) (i : Instr) : Prop where
  recognised : mnemonicOf spelling = some m
  alone : ∀ labels text line, emitRecord labels ⟨m, none, text, line⟩ = .ok (encode i)
  argument : ∀ labels a text line,
    emitRecord labels ⟨m, some a, text, line⟩ = .error (.unexpectedArgument (line + 1) m a)

/-- The operand a validated argument stands for: a bound label's index, else the number of one or two digits
(40_assembler R120, R123). -/
def operandOf (labels : List LabelEntry) : Option Token → Option Nat
  | none => none
  | some a =>
    match lookupLabel labels a with
    | some e => some e.index
    | none => if a ≠ [] ∧ a.length ≤ 2 ∧ a.all isDigit = true then some (decimalValue a) else none

/-- The instruction a mnemonic names with an operand, or without one (30_encoding R84); DAT names none. -/
def named : Mnemonic → Option Nat → Option Instr
  | .hlt, none => some .hlt
  | .inp, none => some .inp
  | .out, none => some .out
  | .add, some n => some (.add n)
  | .sub, some n => some (.sub n)
  | .sta, some n => some (.sta n)
  | .lda, some n => some (.lda n)
  | .bra, some n => some (.bra n)
  | .brz, some n => some (.brz n)
  | .brp, some n => some (.brp n)
  | _, _ => none

/-- The two states agree on everything but the observation channels: the instrumentation record, the events already
exchanged, what was handed back, the trace threshold, the open parameters that only name what is observed, and the counter
of free traces (10_state R44; 41_step_cycle R174; 60_exceptions R249). -/
structure SameMachine (s t : State) : Prop where
  acc : s.acc = t.acc
  pc : s.pc = t.pc
  mem : s.mem = t.mem
  image : s.image = t.image
  status : s.status = t.status
  inputMode : s.cfg.inputMode = t.cfg.inputMode
  producerAnswers : s.cfg.producerAnswers = t.cfg.producerAnswers
  outputReturns : s.cfg.outputReturns = t.cfg.outputReturns
  traceReturns : s.cfg.traceReturns = t.cfg.traceReturns
  resume : s.resume = t.resume
  inputs : s.inputs = t.inputs
  inputPos : s.inputPos = t.inputPos
  script : s.script = t.script

end Sys2Proof.Machine
end

