-- ==== Sys2Proof/Certificates/Slice0/Obligations.lean ====
section
/-! DEFINITION. The statements about the machine, each from a numbered rule of spec/. In every statement about `exec` the
state is the one in which `pc` is already advanced past the instruction (41_step_cycle R153, R158). -/

open Sys2Proof Sys2Proof.Machine

/-- 30_encoding R83, R82: the fourteen ranges, and the operand `w mod 100`. -/
def Obligations.DecodeFollowsTheRanges : Prop :=
  ∀ w : Word,
    (w.val = 0 → decode w = .hlt) ∧
    (1 ≤ w.val → w.val ≤ 99 → decode w = .illegalLow0xx w) ∧
    (100 ≤ w.val → w.val ≤ 199 → decode w = .add (w.val % 100)) ∧
    (200 ≤ w.val → w.val ≤ 299 → decode w = .sub (w.val % 100)) ∧
    (300 ≤ w.val → w.val ≤ 399 → decode w = .sta (w.val % 100)) ∧
    (400 ≤ w.val → w.val ≤ 499 → decode w = .illegalUnassigned4xx w) ∧
    (500 ≤ w.val → w.val ≤ 599 → decode w = .lda (w.val % 100)) ∧
    (600 ≤ w.val → w.val ≤ 699 → decode w = .bra (w.val % 100)) ∧
    (700 ≤ w.val → w.val ≤ 799 → decode w = .brz (w.val % 100)) ∧
    (800 ≤ w.val → w.val ≤ 899 → decode w = .brp (w.val % 100)) ∧
    (w.val = 900 → decode w = .illegalReserved900) ∧
    (w.val = 901 → decode w = .inp) ∧
    (w.val = 902 → decode w = .out) ∧
    (903 ≤ w.val → w.val ≤ 999 → decode w = .illegalHigh9xx w)

/-- 30_encoding R81, R85: decoding the word of a well-formed instruction gives the instruction back, with its operand;
DAT is left out because its word decodes to the instruction it happens to be (30_encoding R88). -/
def Obligations.EncodedInstructionDecodesBack : Prop :=
  ∀ i : Instr, WellFormed i → (∀ v, i ≠ .dat v) → decode (encode i) = i

/-- 30_encoding R83, R86, R91: every word decodes to one well-formed instruction whose word it is, never to DAT, and a
number above 999 is rejected by name (00_scope R9). -/
def Obligations.DecodedWordEncodesBack : Prop :=
  (∀ n i, decodeNat n = .ok i → n < 1000 ∧ WellFormed i ∧ (encode i).val = n ∧ ∀ v, i ≠ .dat v) ∧
  (∀ n, n < 1000 → ∃ i, decodeNat n = .ok i) ∧
  (∀ n, 1000 ≤ n → decodeNat n = .error (.notAWord n))

/-- Words written out from the spec's encodings (30_encoding R81; the words of 95_test_vectors part 2) decode to what they
stand for. -/
def Obligations.WrittenOutWordsDecode : Prop :=
  decode 0 = .hlt ∧ decode 105 = .add 5 ∧ decode 209 = .sub 9 ∧ decode 399 = .sta 99 ∧ decode 503 = .lda 3 ∧
  decode 600 = .bra 0 ∧ decode 707 = .brz 7 ∧ decode 810 = .brp 10 ∧ decode 901 = .inp ∧ decode 902 = .out ∧
  decode 1 = .illegalLow0xx 1 ∧ decode 450 = .illegalUnassigned4xx 450 ∧ decode 900 = .illegalReserved900 ∧
  decode 999 = .illegalHigh9xx 999

/-- 40_assembler R128, R129: a DAT argument in -999..999 is the word `v` or `1000 + v`; it reads back as `v` exactly in
-500..499; and `v` and `v - 1000` collide. -/
def Obligations.DatWordIsOffsetEncoded : Prop :=
  ∀ v : Int, -999 ≤ v → v ≤ 999 →
    ((encode (.dat v)).val : Int) = (if v < 0 then 1000 + v else v) ∧
    (dec (encode (.dat v)) = v ↔ -500 ≤ v ∧ v ≤ 499) ∧
    (1 ≤ v → encode (.dat v) = encode (.dat (v - 1000)))

/-- 00_scope R11 with R10: `cap(z)` is the remainder of floor division by 1000, always in 0..999. -/
def Obligations.CapIsFloorModulo : Prop :=
  ∀ z : Int, ((cap z).val : Int) = z % 1000 ∧ 0 ≤ ((cap z).val : Int) ∧ ((cap z).val : Int) ≤ 999 ∧
    ∃ q : Int, z = 1000 * q + (cap z).val

/-- 00_scope R12: the signed view. -/
def Obligations.SignedViewRoundTrips : Prop :=
  (∀ v : Int, enc v = if v < 0 then 1000 + v else v) ∧
  (∀ w : Word, dec w = (if 500 ≤ w.val then (w.val : Int) - 1000 else (w.val : Int)) ∧ -500 ≤ dec w ∧ dec w ≤ 499) ∧
  (∀ v : Int, cap (enc v) = cap v ∧ ((cap (enc v)).val : Int) = v % 1000) ∧
  (∀ v : Int, dec (cap (enc v)) = v ↔ -500 ≤ v ∧ v ≤ 499)

/-- 42_arithmetic R180: ADD, whole, for every operand address. -/
def Obligations.AddResult : Prop :=
  (∀ w : Word, 100 ≤ w.val → w.val ≤ 199 → decode w = .add (w.val % 100)) ∧ AssemblesWithAddress ['A', 'D', 'D'] .add .add ∧
  ∀ (s : State) (n : Nat), n < 100 → ∃ t, exec (.add n) s = .next t ∧
    t.acc.val = (s.acc.val + (wordAt s n).val) % 1000 ∧ t.pc = s.pc ∧ (∀ a, wordAt t a = wordAt s a) ∧
    t.instr = { s.instr with accRead := true, accWritten := true, memReads := s.instr.memReads.insert n } ∧
    (∃ k, t.events = s.events ++ [.trace .low k]) ∧ t.freeCount = s.freeCount ∧
    KeepsInput s t ∧ KeepsHostSide s t ∧ EndsWith .continued t

/-- 42_arithmetic R182: SUB, whole, for every operand address; the modulo is the floor modulo. -/
def Obligations.SubResult : Prop :=
  (∀ w : Word, 200 ≤ w.val → w.val ≤ 299 → decode w = .sub (w.val % 100)) ∧ AssemblesWithAddress ['S', 'U', 'B'] .sub .sub ∧
  ∀ (s : State) (n : Nat), n < 100 → ∃ t, exec (.sub n) s = .next t ∧
    (t.acc.val : Int) = ((s.acc.val : Int) - (wordAt s n).val) % 1000 ∧ t.pc = s.pc ∧
    (∀ a, wordAt t a = wordAt s a) ∧
    t.instr = { s.instr with accRead := true, accWritten := true, memReads := s.instr.memReads.insert n } ∧
    (∃ k, t.events = s.events ++ [.trace .low k]) ∧ t.freeCount = s.freeCount ∧
    KeepsInput s t ∧ KeepsHostSide s t ∧ EndsWith .continued t

/-- 42_arithmetic R185 (derived there): under the signed view ADD and SUB are exact when the mathematical result is in
-500..499, and differ from it by a multiple of 1000 always. -/
def Obligations.SignedViewOfAddAndSub : Prop :=
  ∀ (s : State) (n : Nat), n < 100 →
    (∃ t, exec (.add n) s = .next t ∧
      (-500 ≤ dec s.acc + dec (wordAt s n) → dec s.acc + dec (wordAt s n) ≤ 499 →
        dec t.acc = dec s.acc + dec (wordAt s n)) ∧
      ∃ q : Int, dec t.acc = dec s.acc + dec (wordAt s n) + 1000 * q) ∧
    (∃ t, exec (.sub n) s = .next t ∧
      (-500 ≤ dec s.acc - dec (wordAt s n) → dec s.acc - dec (wordAt s n) ≤ 499 →
        dec t.acc = dec s.acc - dec (wordAt s n)) ∧
      ∃ q : Int, dec t.acc = dec s.acc - dec (wordAt s n) + 1000 * q)

/-- 43_load_store R190: STA, whole, for every operand address. -/
def Obligations.StaResult : Prop :=
  (∀ w : Word, 300 ≤ w.val → w.val ≤ 399 → decode w = .sta (w.val % 100)) ∧ AssemblesWithAddress ['S', 'T', 'A'] .sta .sta ∧
  ∀ (s : State) (n : Nat), n < 100 → ∃ t, exec (.sta n) s = .next t ∧
    wordAt t n = s.acc ∧ (∀ a, a ≠ n → wordAt t a = wordAt s a) ∧ t.acc = s.acc ∧ t.pc = s.pc ∧
    t.instr = { s.instr with accRead := true, memWrites := s.instr.memWrites.insert n } ∧
    (∃ tail, t.events = s.events ++ tail ∧ OptionalLowTrace tail) ∧
    KeepsInput s t ∧ KeepsHostSide s t ∧ EndsWith .continued t

/-- 43_load_store R192: LDA, whole, for every operand address. -/
def Obligations.LdaResult : Prop :=
  (∀ w : Word, 500 ≤ w.val → w.val ≤ 599 → decode w = .lda (w.val % 100)) ∧ AssemblesWithAddress ['L', 'D', 'A'] .lda .lda ∧
  ∀ (s : State) (n : Nat), n < 100 → ∃ t, exec (.lda n) s = .next t ∧
    t.acc = wordAt s n ∧ t.pc = s.pc ∧ (∀ a, wordAt t a = wordAt s a) ∧
    t.instr = { s.instr with accWritten := true, memReads := s.instr.memReads.insert n } ∧
    (∃ tail, t.events = s.events ++ tail ∧ OptionalLowTrace tail) ∧
    KeepsInput s t ∧ KeepsHostSide s t ∧ EndsWith .continued t

/-- 44_branch R200: BRA, whole, for every target. -/
def Obligations.BraResult : Prop :=
  (∀ w : Word, 600 ≤ w.val → w.val ≤ 699 → decode w = .bra (w.val % 100)) ∧ AssemblesWithAddress ['B', 'R', 'A'] .bra .bra ∧
  ∀ (s : State) (n : Nat), n < 100 → ∃ t, exec (.bra n) s = .next t ∧
    t.pc = n ∧ t.acc = s.acc ∧ (∀ a, wordAt t a = wordAt s a) ∧ t.instr = s.instr ∧
    (∃ k, t.events = s.events ++ [.trace .low k]) ∧ t.freeCount = s.freeCount ∧
    KeepsInput s t ∧ KeepsHostSide s t ∧ EndsWith .continued t

/-- 44_branch R202: BRZ, whole, taken and not, for every target. -/
def Obligations.BrzResult : Prop :=
  (∀ w : Word, 700 ≤ w.val → w.val ≤ 799 → decode w = .brz (w.val % 100)) ∧ AssemblesWithAddress ['B', 'R', 'Z'] .brz .brz ∧
  ∀ (s : State) (n : Nat), n < 100 → ∃ t, exec (.brz n) s = .next t ∧
    t.pc = (if s.acc.val = 0 then n else s.pc) ∧ t.acc = s.acc ∧ (∀ a, wordAt t a = wordAt s a) ∧
    t.instr = { s.instr with accRead := true } ∧
    (∃ k, t.events = s.events ++ [.trace .low k]) ∧ t.freeCount = s.freeCount ∧
    KeepsInput s t ∧ KeepsHostSide s t ∧ EndsWith .continued t

/-- 44_branch R204: BRP, whole, taken and not, for every target; the test is `dec(acc) >= 0`. -/
def Obligations.BrpResult : Prop :=
  (∀ w : Word, 800 ≤ w.val → w.val ≤ 899 → decode w = .brp (w.val % 100)) ∧ AssemblesWithAddress ['B', 'R', 'P'] .brp .brp ∧
  ∀ (s : State) (n : Nat), n < 100 → ∃ t, exec (.brp n) s = .next t ∧
    t.pc = (if s.acc.val < 500 then n else s.pc) ∧ (s.acc.val < 500 ↔ 0 ≤ dec s.acc) ∧ t.acc = s.acc ∧
    (∀ a, wordAt t a = wordAt s a) ∧ t.instr = { s.instr with accRead := true } ∧
    (∃ k, t.events = s.events ++ [.trace .low k]) ∧ t.freeCount = s.freeCount ∧
    KeepsInput s t ∧ KeepsHostSide s t ∧ EndsWith .continued t

/-- 45_io_halt R210, R211, R213: INP in Blocking mode takes the producer's next integer, any integer. The value of a
producer of which nothing is known is free (log 8): the second clause says only that it is the one at its position. -/
def Obligations.InpBlockingResult : Prop :=
  (∀ w : Word, decode w = .inp ↔ w.val = 901) ∧ AssemblesAlone ['I', 'N', 'P'] .inp .inp ∧
  (∀ (s : State) (v : Int), s.cfg.inputMode = .blocking → nextInput s = some v →
    ∃ t, exec .inp s = .next t ∧ (t.acc.val : Int) = v % 1000 ∧ t.pc = s.pc ∧ (∀ a, wordAt t a = wordAt s a) ∧
      t.instr = { s.instr with accWritten := true } ∧ t.inputs = s.inputs.tail ∧ t.inputPos = s.inputPos + 1 ∧
      (∃ tail, t.events = s.events ++ .inputTaken v :: tail ∧ OptionalLowTrace tail) ∧
      KeepsHostSide s t ∧ EndsWith .continued t) ∧
  (∀ (s : State) (v : Int) (rest : List Int), s.inputs = v :: rest → nextInput s = some v) ∧
  (∀ s : State, s.inputs = [] → s.cfg.producerAnswers = true → ∃ v, nextInput s = some v)

/-- 45_io_halt R212, 10_state R42: INP in Suspension mode consults no producer, leaves the accumulator and awaits. -/
def Obligations.InpSuspensionResult : Prop :=
  ∀ s : State, s.cfg.inputMode = .suspension → ∃ t, exec .inp s = .next t ∧
    t.acc = s.acc ∧ t.pc = s.pc ∧ (∀ a, wordAt t a = wordAt s a) ∧ t.instr = s.instr ∧
    (∃ tail, t.events = s.events ++ tail ∧ OptionalLowTrace tail) ∧
    KeepsInput s t ∧ KeepsHostSide s t ∧ EndsWith (.awaitingInput s.resume) t

/-- 45_io_halt R211, R215; 70_reset_and_hazards R273 (decision D25): where the engine is stuck inside a step, whichever of
its three collaborators does not answer. -/
def Obligations.StuckInsideTheStep : Prop :=
  (∀ s : State, s.cfg.inputMode = .blocking → s.inputs = [] → s.cfg.producerAnswers = false →
    exec .inp s = .fault .inputNeverArrives) ∧
  (∀ s : State, s.cfg.outputReturns = false →
    exec .out s = .fault .outputNeverReturns ∧ exec .hlt s = .fault .outputNeverReturns) ∧
  (∀ s : State, (s.script = [] ∨ (∃ r rest, s.script = .step r :: rest) ∨ ∃ rest, s.script = .run :: rest) →
    s.status = .ready → s.cfg.traceReturns = false → step s = .fault .traceNeverReturns)

/-- 45_io_halt R214: OUT, whole, with a consumer that returns (45_io_halt R215). -/
def Obligations.OutResult : Prop :=
  (∀ w : Word, decode w = .out ↔ w.val = 902) ∧ AssemblesAlone ['O', 'U', 'T'] .out .out ∧
  ∀ s : State, s.cfg.outputReturns = true → ∃ t, exec .out s = .next t ∧
    (∃ tail, t.events = s.events ++
      .output (if 500 ≤ s.acc.val then (s.acc.val : Int) - 1000 else s.acc.val) :: tail ∧ OptionalLowTrace tail) ∧
    t.acc = s.acc ∧ t.pc = s.pc ∧ (∀ a, wordAt t a = wordAt s a) ∧ t.instr = { s.instr with accRead := true } ∧
    KeepsInput s t ∧ KeepsHostSide s t ∧ EndsWith .continued t

/-- 45_io_halt R218, R219, R221: HLT sends the completion message exactly once and ends the run. -/
def Obligations.HltResult : Prop :=
  (∀ w : Word, decode w = .hlt ↔ w.val = 0) ∧ AssemblesAlone ['H', 'L', 'T'] .hlt .hlt ∧
  ∀ s : State, s.cfg.outputReturns = true → ∃ t, exec .hlt s = .next t ∧
    (∃ tail, t.events = s.events ++ .completion s.cfg.haltMessage :: tail ∧ OptionalLowTrace tail) ∧
    t.acc = s.acc ∧ t.pc = s.pc ∧ (∀ a, wordAt t a = wordAt s a) ∧ t.instr = s.instr ∧
    KeepsInput s t ∧ KeepsHostSide s t ∧ EndsWith (.halted .explicitHalt) t

/-- 60_exceptions R230, R231, R236, R237: each illegal word takes the fatal error of its class, with the address it was
fetched from and the word, and changes nothing else. -/
def Obligations.IllegalWordsTakeTheFatalError : Prop :=
  ∀ (s : State) (w : Word),
    (∃ t, exec (.illegalLow0xx w) s = .next t ∧
      OnlyFatal (.invalidInstruction .low0xx) (s.pc - 1) (some w) s t) ∧
    (∃ t, exec (.illegalUnassigned4xx w) s = .next t ∧
      OnlyFatal (.invalidInstruction .unassigned4xx) (s.pc - 1) (some w) s t) ∧
    (∃ t, exec .illegalReserved900 s = .next t ∧
      OnlyFatal (.invalidInstruction .reserved900) (s.pc - 1) (some 900) s t) ∧
    (∃ t, exec (.illegalHigh9xx w) s = .next t ∧
      OnlyFatal (.invalidInstruction .high9xx) (s.pc - 1) (some w) s t)

/-- 30_encoding R88: a DAT word reached by execution runs as the instruction it happens to be, whatever line it came from
(the model's reading, log 15). -/
def Obligations.DatRunsAsItsWord : Prop :=
  (∀ (s : State) (v : Int), -999 ≤ v → v ≤ 999 → exec (.dat v) s = exec (decode (encode (.dat v))) s) ∧
  (∀ (s : State) (v : Int), -999 ≤ v → v ≤ 999 → CollaboratorsAnswer s → ∃ t, exec (.dat v) s = .next t)

/-- 60_exceptions R234 (decision D26): an operand address outside 0..99, which no word decodes to, is a fatal error. -/
def Obligations.OperandOutOfRangeIsFatal : Prop :=
  ∀ (s : State) (n : Nat), 100 ≤ n → ∀ i ∈ [Instr.add n, .sub n, .sta n, .lda n, .bra n, .brz n, .brp n],
    ∃ t, exec i s = .next t ∧ OnlyFatal .addressOutOfRange (s.pc - 1) (some (encode i)) s t

/-- 70_reset_and_hazards R273, 60_exceptions R235: with collaborators that answer, every well-formed instruction completes
in every state. -/
def Obligations.EveryInstructionCompletes : Prop :=
  ∀ (i : Instr) (s : State), WellFormed i → CollaboratorsAnswer s → ∃ t, exec i s = .next t

/-- 20_memory R61, 10_state R38: memory is written by STA only, at its operand address only. -/
def Obligations.OnlyStaWritesMemory : Prop :=
  ∀ (i : Instr) (s t : State), exec i s = .next t → ∀ a, storeAddr i ≠ some a → wordAt t a = wordAt s a

/-- 10_state R32: the accumulator is written by ADD, SUB, LDA and a Blocking INP only. -/
def Obligations.OnlyTheseWriteTheAccumulator : Prop :=
  ∀ (i : Instr) (s t : State), exec i s = .next t → writesAcc s.cfg.inputMode (effective i) = false → t.acc = s.acc

/-- 20_memory R61, 10_state R39, R40, 41_step_cycle R172: no instruction touches the image, the configuration or the host's
side, and the events already exchanged stay. -/
def Obligations.InstructionsKeepTheHostSide : Prop :=
  ∀ (i : Instr) (s t : State), exec i s = .next t → KeepsHostSide s t ∧ ∃ tail, t.events = s.events ++ tail

/-- 10_state R35: where each instruction leaves the counter, with `a = s.pc` the address it was fetched from. -/
def Obligations.StepLeavesThePc : Prop :=
  ∀ (s t : State), StepRequested s → s.pc < 100 → step s = .next t →
    t.pc = (takenTarget s.acc (decode (wordAt s s.pc))).getD (s.pc + 1) ∧
    (∀ a, takenTarget s.acc (decode (wordAt s s.pc)) = some a → a < 100) ∧
    (∀ c, classOf (wordAt s s.pc) = some c →
      t.pc = s.pc + 1 ∧ t.status = .faulted (.invalidInstruction c) s.pc (some (wordAt s s.pc)))

/-- 41_step_cycle R151 to R155, R158: when the word at `pc` decodes to `i`, the step is `exec i` on the state after the
announce, the fetch and the increment. -/
def Obligations.StepRunsTheDecodedInstruction : Prop :=
  ∀ (s : State) (i : Instr), StepRequested s → s.cfg.traceReturns = true → s.pc < 100 → decode (wordAt s s.pc) = i →
    ∃ u, step s = exec i u ∧ u.pc = s.pc + 1 ∧ u.acc = s.acc ∧ u.mem = s.mem ∧ u.status = s.status ∧
      u.reply = s.reply ∧ u.freeCount = s.freeCount ∧
      u.instr = ⟨false, false, if s.cfg.fetchInReadSet then [s.pc] else [], []⟩ ∧
      u.events = s.events ++ [.trace .high (.fetchAddress s.pc), .trace .medium (.instructionValue (wordAt s s.pc)),
        .trace .medium (.dump s.mem s.acc s.pc)] ∧
      KeepsInput s u ∧ KeepsHostSide s u

/-- 41_step_cycle R150, R152, R166, R168, R171, R172; 60_exceptions R233 (decision D1): a step request of the host's script
runs the engine once with its flag; a run request runs it with `resume = true` and stays while the outcome is `continued`,
and a fatal error or a step that is stuck ends it; at `pc = 100` both answer with the fatal error FetchOutOfRange. The
script is the model's form of the host (log 12). -/
def Obligations.StepAndRunRequestsRunTheEngine : Prop :=
  (∀ (s : State) (r : Bool) (rest : List HostRequest), s.script = .step r :: rest → s.status = .ready →
    s.cfg.traceReturns = true → s.pc < 100 →
    step s = exec (decode (wordAt s s.pc)) (afterFetch { s with resume := r, script := rest })) ∧
  (∀ (s u : State) (rest : List HostRequest), s.script = .run :: rest → s.status = .ready →
    s.cfg.traceReturns = true → s.pc < 100 →
    exec (decode (wordAt s s.pc)) (afterFetch { s with resume := true, script := rest }) = .next u →
    step s = .next (if u.status = .ready then { u with script := .run :: rest, reply := .nothing } else u)) ∧
  (∀ (s : State) (f : Fault) (rest : List HostRequest), s.script = .run :: rest → s.status = .ready →
    s.cfg.traceReturns = true → s.pc < 100 →
    exec (decode (wordAt s s.pc)) (afterFetch { s with resume := true, script := rest }) = .fault f →
    step s = .fault f) ∧
  (∀ (s : State) (q : HostRequest) (r : Bool) (rest : List HostRequest), s.script = q :: rest →
    (q = .step r ∨ (q = .run ∧ r = true)) → s.status = .ready → s.cfg.traceReturns = true → s.pc = 100 →
    ∃ t, step s = .next t ∧ t.pc = 100 ∧ t.acc = s.acc ∧ (∀ a, wordAt t a = wordAt s a) ∧
      t.instr = ⟨false, false, [], []⟩ ∧ t.events = s.events ++ [.trace .high (.fetchAddress 100)] ∧
      KeepsInput s t ∧ t.image = s.image ∧ t.cfg = s.cfg ∧ t.resume = r ∧ t.script = rest ∧
      EndsFatally .fetchOutOfRange 100 none t)

/-- 41_step_cycle R163 (decisions D2, D3): a step or run is refused when the status is not Ready. -/
def Obligations.StepRefusedUnlessReady : Prop :=
  ∀ s : State, (s.script = [] ∨ (∃ r rest, s.script = .step r :: rest) ∨ ∃ rest, s.script = .run :: rest) →
    (s.status = .halted → step s = .refused .stepWhenHalted) ∧
    (∀ r, s.status = .awaitingInput r → step s = .refused .stepWhileAwaitingInput) ∧
    (∀ k a v, s.status = .faulted k a v → step s = .refused .stepWhenFaulted)

/-- 60_exceptions R233, R237 (decision D1): a step at `pc = 100` is announced and raises FetchOutOfRange, with no wrap. -/
def Obligations.FetchPastTheEndFaults : Prop :=
  ∀ s : State, StepRequested s → s.cfg.traceReturns = true → s.pc = 100 → ∃ t, step s = .next t ∧ t.pc = 100 ∧ t.acc = s.acc ∧
    (∀ a, wordAt t a = wordAt s a) ∧ t.instr = ⟨false, false, [], []⟩ ∧
    t.events = s.events ++ [.trace .high (.fetchAddress 100)] ∧
    KeepsInput s t ∧ KeepsHostSide s t ∧ EndsFatally .fetchOutOfRange 100 none t

/-- 60_exceptions R231, R237: a step on an illegal word leaves `pc = a + 1`, the accumulator and memory as before, and the
fatal error `(InvalidInstruction(class), a, w)`. -/
def Obligations.IllegalWordFaultsWhereItStands : Prop :=
  ∀ (s : State) (c : IllegalClass), StepRequested s → s.cfg.traceReturns = true → s.pc < 100 →
    classOf (wordAt s s.pc) = some c →
    ∃ t, step s = .next t ∧ t.pc = s.pc + 1 ∧ t.acc = s.acc ∧ (∀ a, wordAt t a = wordAt s a) ∧
      outputs t = outputs s ∧ exchanges t = exchanges s ∧ KeepsInput s t ∧ KeepsHostSide s t ∧
      EndsFatally (.invalidInstruction c) s.pc (some (wordAt s s.pc)) t

/-- 41_step_cycle R175: the instrumentation record after a step is the table's row of the instruction. -/
def Obligations.InstrumentationFollowsTheTable : Prop :=
  ∀ (s t : State), StepRequested s → s.pc < 100 → step s = .next t →
    t.instr = instrTable s.cfg.inputMode (if s.cfg.fetchInReadSet then [s.pc] else []) (decode (wordAt s s.pc))

/-- 41_step_cycle R156, R159, R173: the events of a step begin with the high and the two medium traces; the only trace
after them is of level low and there is at most one, exactly one for ADD, SUB, BRA, BRZ and BRP, none for an illegal word. -/
def Obligations.TraceEventsOfAStep : Prop :=
  ∀ (s t : State), StepRequested s → s.pc < 100 → step s = .next t →
    ∃ tail, t.events = s.events ++ [.trace .high (.fetchAddress s.pc), .trace .medium (.instructionValue (wordAt s s.pc)),
        .trace .medium (.dump s.mem s.acc s.pc)] ++ tail ∧
      (∀ e ∈ tail, e.isTrace = true → e.isLowTrace = true) ∧ (tail.filter Event.isLowTrace).length ≤ 1 ∧
      (teaches (decode (wordAt s s.pc)) = true → (tail.filter Event.isLowTrace).length = 1) ∧
      ((classOf (wordAt s s.pc)).isSome = true → tail = [])

/-- 41_step_cycle R174: no step depends on the trace threshold. -/
def Obligations.TraceThresholdChangesNothing : Prop :=
  ∀ (s : State) (l : TraceLevel), step (withThreshold l s) = mapNext (withThreshold l) (step s)

/-- 10_state R44, 41_step_cycle R174, 60_exceptions R249: a running program can observe none of the instrumentation, the
events exchanged, what was handed back and the trace threshold: two machines that agree on everything else go on agreeing. -/
def Obligations.ObservationChannelsDoNotInfluence : Prop :=
  ∀ s s' t : State, SameMachine s s' → step s = .next t → ∃ t', step s' = .next t' ∧ SameMachine t t'

/-- 20_memory R72: a store to the next address is what is fetched and executed next. -/
def Obligations.NextFetchSeesTheStore : Prop :=
  ∀ s : State, StepRequested s → s.cfg.traceReturns = true → s.pc + 1 < 100 →
    decode (wordAt s s.pc) = .sta (s.pc + 1) →
    ∃ t, step s = .next t ∧ t.pc = s.pc + 1 ∧ wordAt t t.pc = s.acc ∧ step t = exec (decode s.acc) (afterFetch t)

/-- 43_load_store R195: STA then LDA of the same address round-trips the accumulator, whatever happened to everything but
that word in between. -/
def Obligations.StoreThenLoadRoundTrips : Prop :=
  ∀ (s t u : State) (n : Nat), n < 100 → exec (.sta n) s = .next t → wordAt u n = wordAt t n →
    ∃ r, exec (.lda n) u = .next r ∧ r.acc = s.acc

/-- 60_exceptions R234, R235: the only fatal errors a step ends with are the two reachable kinds, with the triple of R230. -/
def Obligations.OnlyTheListedFatalErrors : Prop :=
  ∀ (s t : State) (k : FatalKind) (a : Nat) (v : Option Word), step s = .next t → t.status = .faulted k a v →
    (k = .fetchOutOfRange ∧ 100 ≤ s.pc ∧ a = 100 ∧ v = none) ∨
    ∃ c, k = .invalidInstruction c ∧ s.pc < 100 ∧ a = s.pc ∧ v = some (wordAt s s.pc) ∧ classOf (wordAt s s.pc) = some c

/-- 41_step_cycle R157, 70_reset_and_hazards R273: with collaborators that answer, a step requested in Ready completes. -/
def Obligations.ReadyStepCompletes : Prop :=
  ∀ s : State, StepRequested s → CollaboratorsAnswer s → s.cfg.traceReturns = true → ∃ t, step s = .next t

/-- 10_state R39, R40; 70_reset_and_hazards R263: no step, delivery or reset changes the image or the configuration. -/
def Obligations.StepKeepsImageAndConfiguration : Prop :=
  ∀ s t : State, step s = .next t → t.image = s.image ∧ t.cfg = s.cfg

/-- 10_state R50: the state after reset, in the values the spec gives (status and instrumentation are its decision D4). -/
def Obligations.StateAfterReset : Prop :=
  State.reset.pc = 0 ∧ State.reset.acc = 0 ∧ (∀ a, wordAt State.reset a = State.reset.image.get a) ∧
  State.reset.status = .ready ∧ State.reset.instr = ⟨false, false, [], []⟩

/-- The machine after reset meets the invariant. -/
def Obligations.InvariantAtReset : Prop := State.reset.Inv

/-- 10_state R34, R37, R38, R44; 60_exceptions R230 to R237, R250: every step keeps the invariant. -/
def Obligations.EveryStepKeepsTheInvariant : Prop :=
  ∀ s t : State, s.Inv → step s = .next t → t.Inv

/-- 41_step_cycle R164, R176: a delivered input reaches the accumulator, the flag is handed back, nothing else changes. -/
def Obligations.DeliveredInputResumes : Prop :=
  ∀ (s : State) (v : Int) (r : Bool) (rest : List HostRequest), s.cfg.inputMode = .suspension →
    s.status = .awaitingInput r → s.script = .deliverInput v :: rest →
    ∃ t, step s = .next t ∧ (t.acc.val : Int) = v % 1000 ∧ t.status = .ready ∧ t.reply = .resume r ∧ t.pc = s.pc ∧
      (∀ a, wordAt t a = wordAt s a) ∧ t.instr = { s.instr with accWritten := true } ∧ t.events = s.events ∧
      t.image = s.image ∧ t.cfg = s.cfg ∧ KeepsInput s t ∧ t.script = rest

/-- 41_step_cycle R165 (decision D3): a delivery is refused when nothing is awaited and in Blocking mode. -/
def Obligations.DeliveryRefusedUnlessAwaited : Prop :=
  ∀ (s : State) (v : Int) (rest : List HostRequest), s.script = .deliverInput v :: rest →
    (s.cfg.inputMode = .blocking → step s = .refused .deliveryInBlockingMode) ∧
    (s.cfg.inputMode = .suspension → (∀ r, s.status ≠ .awaitingInput r) → step s = .refused .inputNotAwaited)

/-- 70_reset_and_hazards R260 to R264 (status and instrumentation by decision D4): a reset, in any status, restores the
engine, keeps what is not its own, and doing it twice is doing it once. That it emits no output and no completion message is
R260's; that it emits no trace event either, so that the whole list of events stays, is the model's choice (log 23): R260
says that it is not stated. -/
def Obligations.ResetRestoresTheEngine : Prop :=
  (∀ (s : State) (rest : List HostRequest), s.script = .reset :: rest →
    ∃ t, step s = .next t ∧ t.pc = 0 ∧ t.acc = 0 ∧ (∀ a, wordAt t a = s.image.get a) ∧ t.image = s.image ∧
      t.status = .ready ∧ t.instr = ⟨false, false, [], []⟩ ∧ t.cfg = s.cfg ∧ t.events = s.events ∧
      KeepsInput s t ∧ t.script = rest) ∧
  (∀ s : State, hostReset (hostReset s) = hostReset s)

/-- 41_step_cycle R169: an INP in Suspension mode and the delivery of `v` leave what an INP in Blocking mode leaves whose
producer returns `v`. -/
def Obligations.SuspensionAndDeliveryEqualBlocking : Prop :=
  ∀ (s : State) (v : Int), StepRequested s → s.cfg.traceReturns = true → s.pc < 100 → decode (wordAt s s.pc) = .inp →
    s.cfg.inputMode = .blocking → nextInput s = some v →
    ∃ b a d, step s = .next b ∧ step (inSuspension s) = .next a ∧ deliverInput v a = .next d ∧
      a.acc = s.acc ∧ observe d = observe b

/-- 10_state R39 (decision D15), 41_step_cycle R172: an engine is constructed from exactly the images of 100 integers in
0..999. -/
def Obligations.ConstructAcceptsExactlyImages : Prop :=
  ∀ (image : List Int) (cfg : EngineConfig) (inputs : List Int),
    ((∃ t, construct image cfg inputs = .next t) ↔ image.length = 100 ∧ ∀ z ∈ image, 0 ≤ z ∧ z ≤ 999) ∧
    ((¬∃ t, construct image cfg inputs = .next t) → construct image cfg inputs = .refused .badImage)

/-- 10_state R51, 20_memory R74, 70_reset_and_hazards R265: a new engine holds its image in memory and is in the reset
state. That `pc` and `acc` start at 0 is the spec's decision D5, and the status and the instrumentation are its D4
(log 11); that the reset adds no trace event to the list is the model's choice (log 23). -/
def Obligations.ConstructedEngineHoldsItsImage : Prop :=
  ∀ (image : List Int) (cfg : EngineConfig) (inputs : List Int) (t : State), construct image cfg inputs = .next t →
    (∀ a z, image[a]? = some z → ((wordAt t a).val : Int) = z ∧ ((t.image.get a).val : Int) = z) ∧
    t.pc = 0 ∧ t.acc = 0 ∧ t.status = .ready ∧ t.instr = ⟨false, false, [], []⟩ ∧ t.cfg = cfg ∧ t.inputs = inputs ∧
    hostReset t = t ∧ t.Inv

/-- The canonical form of memory: two memories that read the same everywhere are the same list (10_state R37: memory is its
100 words). -/
def Obligations.EqualReadsMeanEqualMemories : Prop :=
  ∀ m m' : Memory, m.wf = true → m'.wf = true → (∀ a, m.get a = m'.get a) → m = m'

/-- 40_assembler R131, R132: an image has exactly 100 words, and those from `used` on are 0. -/
def Obligations.AssembledImageIsPadded : Prop :=
  ∀ (mode : ErrorMode) (lines : List Line) (out : List Word) (used : Nat), assemble mode lines = .success out used →
    out.length = 100 ∧ used ≤ 100 ∧ ∀ i, used ≤ i → i < 100 → out[i]? = some 0

/-- 40_assembler R116, R130, R136(e), by the spec's decision D17 (log 11): whether an image is made, and which, does not
depend on `ERROR_MODE`. -/
def Obligations.ErrorModesAgreeOnSuccess : Prop :=
  ∀ (lines : List Line) (out : List Word) (used : Nat),
    assemble .first lines = .success out used ↔ assemble .all lines = .success out used

/-- 40_assembler R116, R130, R134, by the spec's decision D17 (log 11): a failed assembly lists at least one error, and mode
First reports the first of mode All's. -/
def Obligations.FirstModeReportsTheFirstError : Prop :=
  ∀ (lines : List Line) (errors : List AsmError), assemble .all lines = .failure errors →
    ∃ e rest, errors = e :: rest ∧ assemble .first lines = .failure [e]

/-- 40_assembler R111, R120, R136(c): a label used as the argument of a templated mnemonic resolves to the index of the
record it is bound to. -/
def Obligations.LabelArgumentsResolve : Prop :=
  ∀ (mode : ErrorMode) (lines : List Line) (out : List Word) (used j op : Nat) (r : Record) (l : Token) (e : LabelEntry),
    assemble mode lines = .success out used →
    (pass1 mode 0 lines .empty).records[j]? = some r → r.mnemonic.emission = .templated op → r.arg = some l →
    lookupLabel (pass1 mode 0 lines .empty).labels l = some e →
    ∃ w, out[j]? = some w ∧ w.val % 100 = e.index ∧ w.val / 100 = op ∧
      ∃ r', (pass1 mode 0 lines .empty).records[e.index]? = some r' ∧ r'.line = e.line

/-- 40_assembler R121 to R124, R136(d): the word of a record that is no DAT decodes to the instruction the record's mnemonic
names, with the operand its argument stands for, and without one exactly if there is no argument (the accepted arguments are
the spec's decision D23, log 11). -/
def Obligations.EmittedInstructionsDecodeBack : Prop :=
  ∀ (mode : ErrorMode) (lines : List Line) (out : List Word) (used j : Nat) (r : Record),
    assemble mode lines = .success out used → (pass1 mode 0 lines .empty).records[j]? = some r → r.mnemonic ≠ .dat →
    ∃ w, out[j]? = some w ∧
      named r.mnemonic (operandOf (pass1 mode 0 lines .empty).labels r.arg) = some (decode w) ∧
      (operandOf (pass1 mode 0 lines .empty).labels r.arg = none → r.arg = none)

/-- 20_memory R74, 70_reset_and_hazards R266: a successful assembly's image constructs an engine that holds it. -/
def Obligations.AssembledImageConstructs : Prop :=
  ∀ (mode : ErrorMode) (lines : List Line) (out : List Word) (used : Nat) (cfg : EngineConfig) (inputs : List Int),
    assemble mode lines = .success out used →
    ∃ t, construct (out.map fun w => (w.val : Int)) cfg inputs = .next t ∧
      ∀ a w, out[a]? = some w → wordAt t a = w ∧ t.image.get a = w
end

