-- ==== Sys2Proof/Laws/Memory.lean ====
section
/-! SUPPORT. The laws of memory and of address sets: a read after a write, and that every operation keeps the canonical
form. -/

namespace Sys2Proof.Machine

@[simp] theorem Memory.get_nil (a : Nat) : Memory.get [] a = 0 := rfl

theorem Memory.get_cons (c : Cell) (m : Memory) (a : Nat) :
    Memory.get (c :: m) a = if c.1 = a then c.2 else Memory.get m a := rfl

/-- An address no cell has reads as unlisted. -/
theorem Memory.get_absent {m : Memory} {a : Nat} (h : ∀ c ∈ m, c.1 ≠ a) : m.get a = 0 := by
  induction m with
  | nil => rfl
  | cons c m ih =>
    rw [Memory.get_cons, if_neg (h c (by simp)), ih fun d hd => h d (by simp [hd])]

theorem Memory.erase_cons (c : Cell) (m : Memory) (a : Nat) :
    Memory.erase (c :: m) a = if c.1 = a then Memory.erase m a else c :: Memory.erase m a := by
  by_cases h : c.1 = a <;> simp [Memory.erase, h]

theorem Memory.not_mem_erase {m : Memory} {a : Nat} {c : Cell} (h : c ∈ m.erase a) : c.1 ≠ a := by
  simpa [Memory.erase] using (List.mem_filter.1 h).2

theorem Memory.get_erase_same (m : Memory) (a : Nat) : (m.erase a).get a = 0 :=
  Memory.get_absent fun _ => Memory.not_mem_erase

theorem Memory.get_erase_other (m : Memory) {a b : Nat} (h : b ≠ a) : (m.erase a).get b = m.get b := by
  induction m with
  | nil => rfl
  | cons c m ih =>
    rw [Memory.erase_cons, Memory.get_cons]
    split <;> rename_i hc
    · rw [ih, if_neg fun hb => h (hb.symm.trans hc)]
    · rw [Memory.get_cons, ih]

theorem Memory.insert_cons (c : Cell) (m : Memory) (a : Nat) (w : Word) :
    Memory.insert (c :: m) a w = if a < c.1 then (a, w) :: c :: m else c :: Memory.insert m a w := rfl

theorem Memory.get_insert_same {m : Memory} {a : Nat} (w : Word) (h : ∀ c ∈ m, c.1 ≠ a) :
    (m.insert a w).get a = w := by
  induction m with
  | nil => simp [Memory.insert, Memory.get]
  | cons c m ih =>
    rw [Memory.insert_cons]
    split
    · rw [Memory.get_cons, if_pos rfl]
    · rw [Memory.get_cons, if_neg (h c (by simp)), ih fun d hd => h d (by simp [hd])]

theorem Memory.get_insert_other (m : Memory) {a b : Nat} (w : Word) (h : b ≠ a) :
    (m.insert a w).get b = m.get b := by
  induction m with
  | nil => simp [Memory.insert, Memory.get, h.symm]
  | cons c m ih =>
    rw [Memory.insert_cons]
    split
    · rw [Memory.get_cons, if_neg h.symm]
    · rw [Memory.get_cons, Memory.get_cons, ih]

/-- A read after a write to the same address gives the value written (20_memory R66). -/
@[simp] theorem Memory.get_set_same (m : Memory) (a : Nat) (w : Word) : (m.set a w).get a = w := by
  unfold Memory.set
  split <;> rename_i h
  · rw [Memory.get_erase_same, h]
  · exact Memory.get_insert_same w fun _ => Memory.not_mem_erase

/-- A write leaves every other address alone (20_memory R66). -/
theorem Memory.get_set_other (m : Memory) {a b : Nat} (w : Word) (h : b ≠ a) : (m.set a w).get b = m.get b := by
  unfold Memory.set
  split
  · exact Memory.get_erase_other m h
  · rw [Memory.get_insert_other _ w h, Memory.get_erase_other m h]

theorem Memory.wfFrom_cons (lo : Nat) (c : Cell) (m : Memory) :
    Memory.wfFrom lo (c :: m) = true ↔ (lo ≤ c.1 ∧ c.1 < 100 ∧ c.2 ≠ 0) ∧ Memory.wfFrom (c.1 + 1) m = true := by
  obtain ⟨a, w⟩ := c
  simp [Memory.wfFrom, and_assoc]

theorem Memory.wfFrom_mono {lo hi : Nat} {m : Memory} (h : lo ≤ hi) (w : Memory.wfFrom hi m = true) :
    Memory.wfFrom lo m = true := by
  cases m with
  | nil => rfl
  | cons c m =>
    rw [Memory.wfFrom_cons] at w ⊢
    exact ⟨⟨by omega, w.1.2⟩, w.2⟩

theorem Memory.wfFrom_erase {lo : Nat} {m : Memory} (a : Nat) (h : Memory.wfFrom lo m = true) :
    Memory.wfFrom lo (m.erase a) = true := by
  induction m generalizing lo with
  | nil => rfl
  | cons c m ih =>
    rw [Memory.wfFrom_cons] at h
    rw [Memory.erase_cons]
    split
    · exact Memory.wfFrom_mono (by omega) (ih h.2)
    · exact (Memory.wfFrom_cons ..).2 ⟨h.1, ih h.2⟩

theorem Memory.wfFrom_insert {lo a : Nat} {w : Word} {m : Memory} (ha : lo ≤ a) (hb : a < 100) (hw : w ≠ 0)
    (hn : ∀ c ∈ m, c.1 ≠ a) (h : Memory.wfFrom lo m = true) : Memory.wfFrom lo (m.insert a w) = true := by
  induction m generalizing lo with
  | nil => simp [Memory.insert, Memory.wfFrom, ha, hb, hw]
  | cons c m ih =>
    have hc := hn c (by simp)
    rw [Memory.wfFrom_cons] at h
    rw [Memory.insert_cons]
    split <;> rename_i hlt
    · exact (Memory.wfFrom_cons ..).2 ⟨⟨ha, hb, hw⟩, (Memory.wfFrom_cons ..).2 ⟨⟨hlt, h.1.2⟩, h.2⟩⟩
    · exact (Memory.wfFrom_cons ..).2 ⟨h.1, ih (by omega) (fun d hd => hn d (by simp [hd])) h.2⟩

/-- Writing a word to an address of the machine keeps the canonical form. -/
theorem Memory.wf_set {m : Memory} {a : Nat} (w : Word) (ha : a < 100) (h : m.wf = true) : (m.set a w).wf = true := by
  unfold Memory.set
  split <;> rename_i hw
  · exact Memory.wfFrom_erase a h
  · exact Memory.wfFrom_insert (Nat.zero_le a) ha hw (fun _ => Memory.not_mem_erase) (Memory.wfFrom_erase a h)

/-- The memory of an image of words that ends at or before address 100 is in canonical form. -/
theorem Memory.wfFrom_ofWords (a : Nat) (ws : List Word) (h : a + ws.length ≤ 100) :
    Memory.wfFrom a (Memory.ofWords a ws) = true := by
  induction ws generalizing a with
  | nil => rfl
  | cons w ws ih =>
    simp only [List.length_cons] at h
    have hr := ih (a + 1) (by omega)
    unfold Memory.ofWords
    split <;> rename_i hw
    · exact Memory.wfFrom_mono (by omega) hr
    · exact (Memory.wfFrom_cons ..).2 ⟨⟨Nat.le_refl a, by simp only []; omega, hw⟩, hr⟩

/-- Memory after reset is in canonical form. -/
theorem Memory.wf_reset : State.reset.mem.wf = true := rfl

theorem AddrSet.wfFrom_cons (lo a : Nat) (m : AddrSet) :
    AddrSet.wfFrom lo (a :: m) = true ↔ (lo ≤ a ∧ a < 100) ∧ AddrSet.wfFrom (a + 1) m = true := by
  simp [AddrSet.wfFrom]

theorem AddrSet.mem_insert (m : AddrSet) (a b : Nat) : b ∈ m.insert a ↔ b = a ∨ b ∈ m := by
  induction m with
  | nil => simp [AddrSet.insert]
  | cons c m ih =>
    unfold AddrSet.insert
    split
    · simp
    · split <;> rename_i h
      · simp [h]
      · simp only [List.mem_cons, ih]; tauto

theorem AddrSet.wfFrom_insert {lo a : Nat} {m : AddrSet} (ha : lo ≤ a) (hb : a < 100)
    (h : AddrSet.wfFrom lo m = true) : AddrSet.wfFrom lo (m.insert a) = true := by
  induction m generalizing lo with
  | nil => simp [AddrSet.insert, AddrSet.wfFrom, ha, hb]
  | cons c m ih =>
    rw [AddrSet.wfFrom_cons] at h
    unfold AddrSet.insert
    split
    · exact (AddrSet.wfFrom_cons ..).2 ⟨⟨ha, hb⟩, (AddrSet.wfFrom_cons ..).2 ⟨⟨by omega, h.1.2⟩, h.2⟩⟩
    · split
      · exact (AddrSet.wfFrom_cons ..).2 h
      · exact (AddrSet.wfFrom_cons ..).2 ⟨h.1, ih (by omega) h.2⟩

/-- Adding an address of the machine to a set keeps the canonical form. -/
theorem AddrSet.wf_insert {m : AddrSet} {a : Nat} (ha : a < 100) (h : m.wf = true) : (m.insert a).wf = true :=
  AddrSet.wfFrom_insert (Nat.zero_le a) ha h

end Sys2Proof.Machine
end

