-- ==== Sys2Proof/Laws/State.lean ====
section
/-! SUPPORT. What each update of the state does to each field: one lemma per field per update, so that no proof unfolds a
record update. -/

namespace Sys2Proof.Machine

@[simp] theorem emit_acc (e : Event) (s : State) :
    (emit e s).acc = s.acc := rfl
@[simp] theorem emit_pc (e : Event) (s : State) :
    (emit e s).pc = s.pc := rfl
@[simp] theorem emit_mem (e : Event) (s : State) :
    (emit e s).mem = s.mem := rfl
@[simp] theorem emit_image (e : Event) (s : State) :
    (emit e s).image = s.image := rfl
@[simp] theorem emit_status (e : Event) (s : State) :
    (emit e s).status = s.status := rfl
@[simp] theorem emit_instr (e : Event) (s : State) :
    (emit e s).instr = s.instr := rfl
@[simp] theorem emit_cfg (e : Event) (s : State) :
    (emit e s).cfg = s.cfg := rfl
@[simp] theorem emit_resume (e : Event) (s : State) :
    (emit e s).resume = s.resume := rfl
@[simp] theorem emit_inputs (e : Event) (s : State) :
    (emit e s).inputs = s.inputs := rfl
@[simp] theorem emit_inputPos (e : Event) (s : State) :
    (emit e s).inputPos = s.inputPos := rfl
@[simp] theorem emit_freeCount (e : Event) (s : State) :
    (emit e s).freeCount = s.freeCount := rfl
@[simp] theorem emit_events (e : Event) (s : State) :
    (emit e s).events = s.events ++ [e] := rfl
@[simp] theorem emit_script (e : Event) (s : State) :
    (emit e s).script = s.script := rfl
@[simp] theorem emit_reply (e : Event) (s : State) :
    (emit e s).reply = s.reply := rfl

@[simp] theorem trace_acc (l : TraceLevel) (k : TraceKind) (s : State) :
    (trace l k s).acc = s.acc := rfl
@[simp] theorem trace_pc (l : TraceLevel) (k : TraceKind) (s : State) :
    (trace l k s).pc = s.pc := rfl
@[simp] theorem trace_mem (l : TraceLevel) (k : TraceKind) (s : State) :
    (trace l k s).mem = s.mem := rfl
@[simp] theorem trace_image (l : TraceLevel) (k : TraceKind) (s : State) :
    (trace l k s).image = s.image := rfl
@[simp] theorem trace_status (l : TraceLevel) (k : TraceKind) (s : State) :
    (trace l k s).status = s.status := rfl
@[simp] theorem trace_instr (l : TraceLevel) (k : TraceKind) (s : State) :
    (trace l k s).instr = s.instr := rfl
@[simp] theorem trace_cfg (l : TraceLevel) (k : TraceKind) (s : State) :
    (trace l k s).cfg = s.cfg := rfl
@[simp] theorem trace_resume (l : TraceLevel) (k : TraceKind) (s : State) :
    (trace l k s).resume = s.resume := rfl
@[simp] theorem trace_inputs (l : TraceLevel) (k : TraceKind) (s : State) :
    (trace l k s).inputs = s.inputs := rfl
@[simp] theorem trace_inputPos (l : TraceLevel) (k : TraceKind) (s : State) :
    (trace l k s).inputPos = s.inputPos := rfl
@[simp] theorem trace_freeCount (l : TraceLevel) (k : TraceKind) (s : State) :
    (trace l k s).freeCount = s.freeCount := rfl
@[simp] theorem trace_events (l : TraceLevel) (k : TraceKind) (s : State) :
    (trace l k s).events = s.events ++ [.trace l k] := rfl
@[simp] theorem trace_script (l : TraceLevel) (k : TraceKind) (s : State) :
    (trace l k s).script = s.script := rfl
@[simp] theorem trace_reply (l : TraceLevel) (k : TraceKind) (s : State) :
    (trace l k s).reply = s.reply := rfl

@[simp] theorem noteMemRead_acc (a : Nat) (s : State) :
    (noteMemRead a s).acc = s.acc := rfl
@[simp] theorem noteMemRead_pc (a : Nat) (s : State) :
    (noteMemRead a s).pc = s.pc := rfl
@[simp] theorem noteMemRead_mem (a : Nat) (s : State) :
    (noteMemRead a s).mem = s.mem := rfl
@[simp] theorem noteMemRead_image (a : Nat) (s : State) :
    (noteMemRead a s).image = s.image := rfl
@[simp] theorem noteMemRead_status (a : Nat) (s : State) :
    (noteMemRead a s).status = s.status := rfl
@[simp] theorem noteMemRead_instr (a : Nat) (s : State) :
    (noteMemRead a s).instr = { s.instr with memReads := s.instr.memReads.insert a } := rfl
@[simp] theorem noteMemRead_cfg (a : Nat) (s : State) :
    (noteMemRead a s).cfg = s.cfg := rfl
@[simp] theorem noteMemRead_resume (a : Nat) (s : State) :
    (noteMemRead a s).resume = s.resume := rfl
@[simp] theorem noteMemRead_inputs (a : Nat) (s : State) :
    (noteMemRead a s).inputs = s.inputs := rfl
@[simp] theorem noteMemRead_inputPos (a : Nat) (s : State) :
    (noteMemRead a s).inputPos = s.inputPos := rfl
@[simp] theorem noteMemRead_freeCount (a : Nat) (s : State) :
    (noteMemRead a s).freeCount = s.freeCount := rfl
@[simp] theorem noteMemRead_events (a : Nat) (s : State) :
    (noteMemRead a s).events = s.events := rfl
@[simp] theorem noteMemRead_script (a : Nat) (s : State) :
    (noteMemRead a s).script = s.script := rfl
@[simp] theorem noteMemRead_reply (a : Nat) (s : State) :
    (noteMemRead a s).reply = s.reply := rfl

@[simp] theorem memWrite_acc (a : Nat) (v : Word) (s : State) :
    (memWrite a v s).acc = s.acc := rfl
@[simp] theorem memWrite_pc (a : Nat) (v : Word) (s : State) :
    (memWrite a v s).pc = s.pc := rfl
@[simp] theorem memWrite_mem (a : Nat) (v : Word) (s : State) :
    (memWrite a v s).mem = s.mem.set a v := rfl
@[simp] theorem memWrite_image (a : Nat) (v : Word) (s : State) :
    (memWrite a v s).image = s.image := rfl
@[simp] theorem memWrite_status (a : Nat) (v : Word) (s : State) :
    (memWrite a v s).status = s.status := rfl
@[simp] theorem memWrite_instr (a : Nat) (v : Word) (s : State) :
    (memWrite a v s).instr = { s.instr with memWrites := s.instr.memWrites.insert a } := rfl
@[simp] theorem memWrite_cfg (a : Nat) (v : Word) (s : State) :
    (memWrite a v s).cfg = s.cfg := rfl
@[simp] theorem memWrite_resume (a : Nat) (v : Word) (s : State) :
    (memWrite a v s).resume = s.resume := rfl
@[simp] theorem memWrite_inputs (a : Nat) (v : Word) (s : State) :
    (memWrite a v s).inputs = s.inputs := rfl
@[simp] theorem memWrite_inputPos (a : Nat) (v : Word) (s : State) :
    (memWrite a v s).inputPos = s.inputPos := rfl
@[simp] theorem memWrite_freeCount (a : Nat) (v : Word) (s : State) :
    (memWrite a v s).freeCount = s.freeCount := rfl
@[simp] theorem memWrite_events (a : Nat) (v : Word) (s : State) :
    (memWrite a v s).events = s.events := rfl
@[simp] theorem memWrite_script (a : Nat) (v : Word) (s : State) :
    (memWrite a v s).script = s.script := rfl
@[simp] theorem memWrite_reply (a : Nat) (v : Word) (s : State) :
    (memWrite a v s).reply = s.reply := rfl

@[simp] theorem noteAccRead_acc (s : State) :
    (noteAccRead s).acc = s.acc := rfl
@[simp] theorem noteAccRead_pc (s : State) :
    (noteAccRead s).pc = s.pc := rfl
@[simp] theorem noteAccRead_mem (s : State) :
    (noteAccRead s).mem = s.mem := rfl
@[simp] theorem noteAccRead_image (s : State) :
    (noteAccRead s).image = s.image := rfl
@[simp] theorem noteAccRead_status (s : State) :
    (noteAccRead s).status = s.status := rfl
@[simp] theorem noteAccRead_instr (s : State) :
    (noteAccRead s).instr = { s.instr with accRead := true } := rfl
@[simp] theorem noteAccRead_cfg (s : State) :
    (noteAccRead s).cfg = s.cfg := rfl
@[simp] theorem noteAccRead_resume (s : State) :
    (noteAccRead s).resume = s.resume := rfl
@[simp] theorem noteAccRead_inputs (s : State) :
    (noteAccRead s).inputs = s.inputs := rfl
@[simp] theorem noteAccRead_inputPos (s : State) :
    (noteAccRead s).inputPos = s.inputPos := rfl
@[simp] theorem noteAccRead_freeCount (s : State) :
    (noteAccRead s).freeCount = s.freeCount := rfl
@[simp] theorem noteAccRead_events (s : State) :
    (noteAccRead s).events = s.events := rfl
@[simp] theorem noteAccRead_script (s : State) :
    (noteAccRead s).script = s.script := rfl
@[simp] theorem noteAccRead_reply (s : State) :
    (noteAccRead s).reply = s.reply := rfl

@[simp] theorem accWrite_acc (z : Int) (s : State) :
    (accWrite z s).acc = cap z := rfl
@[simp] theorem accWrite_pc (z : Int) (s : State) :
    (accWrite z s).pc = s.pc := rfl
@[simp] theorem accWrite_mem (z : Int) (s : State) :
    (accWrite z s).mem = s.mem := rfl
@[simp] theorem accWrite_image (z : Int) (s : State) :
    (accWrite z s).image = s.image := rfl
@[simp] theorem accWrite_status (z : Int) (s : State) :
    (accWrite z s).status = s.status := rfl
@[simp] theorem accWrite_instr (z : Int) (s : State) :
    (accWrite z s).instr = { s.instr with accWritten := true } := rfl
@[simp] theorem accWrite_cfg (z : Int) (s : State) :
    (accWrite z s).cfg = s.cfg := rfl
@[simp] theorem accWrite_resume (z : Int) (s : State) :
    (accWrite z s).resume = s.resume := rfl
@[simp] theorem accWrite_inputs (z : Int) (s : State) :
    (accWrite z s).inputs = s.inputs := rfl
@[simp] theorem accWrite_inputPos (z : Int) (s : State) :
    (accWrite z s).inputPos = s.inputPos := rfl
@[simp] theorem accWrite_freeCount (z : Int) (s : State) :
    (accWrite z s).freeCount = s.freeCount := rfl
@[simp] theorem accWrite_events (z : Int) (s : State) :
    (accWrite z s).events = s.events := rfl
@[simp] theorem accWrite_script (z : Int) (s : State) :
    (accWrite z s).script = s.script := rfl
@[simp] theorem accWrite_reply (z : Int) (s : State) :
    (accWrite z s).reply = s.reply := rfl

@[simp] theorem setPc_acc (a : Nat) (s : State) :
    (setPc a s).acc = s.acc := rfl
@[simp] theorem setPc_pc (a : Nat) (s : State) :
    (setPc a s).pc = a := rfl
@[simp] theorem setPc_mem (a : Nat) (s : State) :
    (setPc a s).mem = s.mem := rfl
@[simp] theorem setPc_image (a : Nat) (s : State) :
    (setPc a s).image = s.image := rfl
@[simp] theorem setPc_status (a : Nat) (s : State) :
    (setPc a s).status = s.status := rfl
@[simp] theorem setPc_instr (a : Nat) (s : State) :
    (setPc a s).instr = s.instr := rfl
@[simp] theorem setPc_cfg (a : Nat) (s : State) :
    (setPc a s).cfg = s.cfg := rfl
@[simp] theorem setPc_resume (a : Nat) (s : State) :
    (setPc a s).resume = s.resume := rfl
@[simp] theorem setPc_inputs (a : Nat) (s : State) :
    (setPc a s).inputs = s.inputs := rfl
@[simp] theorem setPc_inputPos (a : Nat) (s : State) :
    (setPc a s).inputPos = s.inputPos := rfl
@[simp] theorem setPc_freeCount (a : Nat) (s : State) :
    (setPc a s).freeCount = s.freeCount := rfl
@[simp] theorem setPc_events (a : Nat) (s : State) :
    (setPc a s).events = s.events := rfl
@[simp] theorem setPc_script (a : Nat) (s : State) :
    (setPc a s).script = s.script := rfl
@[simp] theorem setPc_reply (a : Nat) (s : State) :
    (setPc a s).reply = s.reply := rfl

@[simp] theorem consumeInput_acc (v : Int) (s : State) :
    (consumeInput v s).acc = s.acc := rfl
@[simp] theorem consumeInput_pc (v : Int) (s : State) :
    (consumeInput v s).pc = s.pc := rfl
@[simp] theorem consumeInput_mem (v : Int) (s : State) :
    (consumeInput v s).mem = s.mem := rfl
@[simp] theorem consumeInput_image (v : Int) (s : State) :
    (consumeInput v s).image = s.image := rfl
@[simp] theorem consumeInput_status (v : Int) (s : State) :
    (consumeInput v s).status = s.status := rfl
@[simp] theorem consumeInput_instr (v : Int) (s : State) :
    (consumeInput v s).instr = s.instr := rfl
@[simp] theorem consumeInput_cfg (v : Int) (s : State) :
    (consumeInput v s).cfg = s.cfg := rfl
@[simp] theorem consumeInput_resume (v : Int) (s : State) :
    (consumeInput v s).resume = s.resume := rfl
@[simp] theorem consumeInput_inputs (v : Int) (s : State) :
    (consumeInput v s).inputs = s.inputs.tail := rfl
@[simp] theorem consumeInput_inputPos (v : Int) (s : State) :
    (consumeInput v s).inputPos = s.inputPos + 1 := rfl
@[simp] theorem consumeInput_freeCount (v : Int) (s : State) :
    (consumeInput v s).freeCount = s.freeCount := rfl
@[simp] theorem consumeInput_events (v : Int) (s : State) :
    (consumeInput v s).events = s.events ++ [.inputTaken v] := rfl
@[simp] theorem consumeInput_script (v : Int) (s : State) :
    (consumeInput v s).script = s.script := rfl
@[simp] theorem consumeInput_reply (v : Int) (s : State) :
    (consumeInput v s).reply = s.reply := rfl

@[simp] theorem teach_acc (i : Instr) (xs : List Word) (r : Nat) (s : State) :
    (teach i xs r s).acc = s.acc := rfl
@[simp] theorem teach_pc (i : Instr) (xs : List Word) (r : Nat) (s : State) :
    (teach i xs r s).pc = s.pc := rfl
@[simp] theorem teach_mem (i : Instr) (xs : List Word) (r : Nat) (s : State) :
    (teach i xs r s).mem = s.mem := rfl
@[simp] theorem teach_image (i : Instr) (xs : List Word) (r : Nat) (s : State) :
    (teach i xs r s).image = s.image := rfl
@[simp] theorem teach_status (i : Instr) (xs : List Word) (r : Nat) (s : State) :
    (teach i xs r s).status = s.status := rfl
@[simp] theorem teach_instr (i : Instr) (xs : List Word) (r : Nat) (s : State) :
    (teach i xs r s).instr = s.instr := rfl
@[simp] theorem teach_cfg (i : Instr) (xs : List Word) (r : Nat) (s : State) :
    (teach i xs r s).cfg = s.cfg := rfl
@[simp] theorem teach_resume (i : Instr) (xs : List Word) (r : Nat) (s : State) :
    (teach i xs r s).resume = s.resume := rfl
@[simp] theorem teach_inputs (i : Instr) (xs : List Word) (r : Nat) (s : State) :
    (teach i xs r s).inputs = s.inputs := rfl
@[simp] theorem teach_inputPos (i : Instr) (xs : List Word) (r : Nat) (s : State) :
    (teach i xs r s).inputPos = s.inputPos := rfl
@[simp] theorem teach_freeCount (i : Instr) (xs : List Word) (r : Nat) (s : State) :
    (teach i xs r s).freeCount = s.freeCount := rfl
@[simp] theorem teach_events (i : Instr) (xs : List Word) (r : Nat) (s : State) :
    (teach i xs r s).events = s.events ++ [.trace .low (.teaching i xs r)] := rfl
@[simp] theorem teach_script (i : Instr) (xs : List Word) (r : Nat) (s : State) :
    (teach i xs r s).script = s.script := rfl
@[simp] theorem teach_reply (i : Instr) (xs : List Word) (r : Nat) (s : State) :
    (teach i xs r s).reply = s.reply := rfl

@[simp] theorem maybeTeach_acc (i : Instr) (xs : List Word) (r : Nat) (s : State) :
    (maybeTeach i xs r s).acc = s.acc := rfl
@[simp] theorem maybeTeach_pc (i : Instr) (xs : List Word) (r : Nat) (s : State) :
    (maybeTeach i xs r s).pc = s.pc := rfl
@[simp] theorem maybeTeach_mem (i : Instr) (xs : List Word) (r : Nat) (s : State) :
    (maybeTeach i xs r s).mem = s.mem := rfl
@[simp] theorem maybeTeach_image (i : Instr) (xs : List Word) (r : Nat) (s : State) :
    (maybeTeach i xs r s).image = s.image := rfl
@[simp] theorem maybeTeach_status (i : Instr) (xs : List Word) (r : Nat) (s : State) :
    (maybeTeach i xs r s).status = s.status := rfl
@[simp] theorem maybeTeach_instr (i : Instr) (xs : List Word) (r : Nat) (s : State) :
    (maybeTeach i xs r s).instr = s.instr := rfl
@[simp] theorem maybeTeach_cfg (i : Instr) (xs : List Word) (r : Nat) (s : State) :
    (maybeTeach i xs r s).cfg = s.cfg := rfl
@[simp] theorem maybeTeach_resume (i : Instr) (xs : List Word) (r : Nat) (s : State) :
    (maybeTeach i xs r s).resume = s.resume := rfl
@[simp] theorem maybeTeach_inputs (i : Instr) (xs : List Word) (r : Nat) (s : State) :
    (maybeTeach i xs r s).inputs = s.inputs := rfl
@[simp] theorem maybeTeach_inputPos (i : Instr) (xs : List Word) (r : Nat) (s : State) :
    (maybeTeach i xs r s).inputPos = s.inputPos := rfl
@[simp] theorem maybeTeach_freeCount (i : Instr) (xs : List Word) (r : Nat) (s : State) :
    (maybeTeach i xs r s).freeCount = s.freeCount + 1 := rfl
@[simp] theorem maybeTeach_events (i : Instr) (xs : List Word) (r : Nat) (s : State) :
    (maybeTeach i xs r s).events = if Config.freeTrace s.freeCount then s.events ++ [.trace .low (.teaching i xs r)] else s.events := rfl
@[simp] theorem maybeTeach_script (i : Instr) (xs : List Word) (r : Nat) (s : State) :
    (maybeTeach i xs r s).script = s.script := rfl
@[simp] theorem maybeTeach_reply (i : Instr) (xs : List Word) (r : Nat) (s : State) :
    (maybeTeach i xs r s).reply = s.reply := rfl

@[simp] theorem finish_acc (o : StepOutcome) (s : State) :
    (finish o s).acc = s.acc := rfl
@[simp] theorem finish_pc (o : StepOutcome) (s : State) :
    (finish o s).pc = s.pc := rfl
@[simp] theorem finish_mem (o : StepOutcome) (s : State) :
    (finish o s).mem = s.mem := rfl
@[simp] theorem finish_image (o : StepOutcome) (s : State) :
    (finish o s).image = s.image := rfl
@[simp] theorem finish_status (o : StepOutcome) (s : State) :
    (finish o s).status = o.status := rfl
@[simp] theorem finish_instr (o : StepOutcome) (s : State) :
    (finish o s).instr = s.instr := rfl
@[simp] theorem finish_cfg (o : StepOutcome) (s : State) :
    (finish o s).cfg = s.cfg := rfl
@[simp] theorem finish_resume (o : StepOutcome) (s : State) :
    (finish o s).resume = s.resume := rfl
@[simp] theorem finish_inputs (o : StepOutcome) (s : State) :
    (finish o s).inputs = s.inputs := rfl
@[simp] theorem finish_inputPos (o : StepOutcome) (s : State) :
    (finish o s).inputPos = s.inputPos := rfl
@[simp] theorem finish_freeCount (o : StepOutcome) (s : State) :
    (finish o s).freeCount = s.freeCount := rfl
@[simp] theorem finish_events (o : StepOutcome) (s : State) :
    (finish o s).events = s.events := rfl
@[simp] theorem finish_script (o : StepOutcome) (s : State) :
    (finish o s).script = s.script := rfl
@[simp] theorem finish_reply (o : StepOutcome) (s : State) :
    (finish o s).reply = .outcome o := rfl

@[simp] theorem raiseFatal_acc (k : FatalKind) (a : Nat) (v : Option Word) (s : State) :
    (raiseFatal k a v s).acc = s.acc := rfl
@[simp] theorem raiseFatal_pc (k : FatalKind) (a : Nat) (v : Option Word) (s : State) :
    (raiseFatal k a v s).pc = s.pc := rfl
@[simp] theorem raiseFatal_mem (k : FatalKind) (a : Nat) (v : Option Word) (s : State) :
    (raiseFatal k a v s).mem = s.mem := rfl
@[simp] theorem raiseFatal_image (k : FatalKind) (a : Nat) (v : Option Word) (s : State) :
    (raiseFatal k a v s).image = s.image := rfl
@[simp] theorem raiseFatal_status (k : FatalKind) (a : Nat) (v : Option Word) (s : State) :
    (raiseFatal k a v s).status = .faulted k a v := rfl
@[simp] theorem raiseFatal_instr (k : FatalKind) (a : Nat) (v : Option Word) (s : State) :
    (raiseFatal k a v s).instr = s.instr := rfl
@[simp] theorem raiseFatal_cfg (k : FatalKind) (a : Nat) (v : Option Word) (s : State) :
    (raiseFatal k a v s).cfg = s.cfg := rfl
@[simp] theorem raiseFatal_resume (k : FatalKind) (a : Nat) (v : Option Word) (s : State) :
    (raiseFatal k a v s).resume = s.resume := rfl
@[simp] theorem raiseFatal_inputs (k : FatalKind) (a : Nat) (v : Option Word) (s : State) :
    (raiseFatal k a v s).inputs = s.inputs := rfl
@[simp] theorem raiseFatal_inputPos (k : FatalKind) (a : Nat) (v : Option Word) (s : State) :
    (raiseFatal k a v s).inputPos = s.inputPos := rfl
@[simp] theorem raiseFatal_freeCount (k : FatalKind) (a : Nat) (v : Option Word) (s : State) :
    (raiseFatal k a v s).freeCount = s.freeCount := rfl
@[simp] theorem raiseFatal_events (k : FatalKind) (a : Nat) (v : Option Word) (s : State) :
    (raiseFatal k a v s).events = s.events := rfl
@[simp] theorem raiseFatal_script (k : FatalKind) (a : Nat) (v : Option Word) (s : State) :
    (raiseFatal k a v s).script = s.script := rfl
@[simp] theorem raiseFatal_reply (k : FatalKind) (a : Nat) (v : Option Word) (s : State) :
    (raiseFatal k a v s).reply = .fatal k a v := rfl

@[simp] theorem announce_acc (s : State) :
    (announce s).acc = s.acc := rfl
@[simp] theorem announce_pc (s : State) :
    (announce s).pc = s.pc := rfl
@[simp] theorem announce_mem (s : State) :
    (announce s).mem = s.mem := rfl
@[simp] theorem announce_image (s : State) :
    (announce s).image = s.image := rfl
@[simp] theorem announce_status (s : State) :
    (announce s).status = s.status := rfl
@[simp] theorem announce_instr (s : State) :
    (announce s).instr = .cleared := rfl
@[simp] theorem announce_cfg (s : State) :
    (announce s).cfg = s.cfg := rfl
@[simp] theorem announce_resume (s : State) :
    (announce s).resume = s.resume := rfl
@[simp] theorem announce_inputs (s : State) :
    (announce s).inputs = s.inputs := rfl
@[simp] theorem announce_inputPos (s : State) :
    (announce s).inputPos = s.inputPos := rfl
@[simp] theorem announce_freeCount (s : State) :
    (announce s).freeCount = s.freeCount := rfl
@[simp] theorem announce_events (s : State) :
    (announce s).events = s.events ++ [.trace .high (.fetchAddress s.pc)] := rfl
@[simp] theorem announce_script (s : State) :
    (announce s).script = s.script := rfl
@[simp] theorem announce_reply (s : State) :
    (announce s).reply = s.reply := rfl

@[simp] theorem noteFetch_acc (s : State) :
    (noteFetch s).acc = s.acc := rfl
@[simp] theorem noteFetch_pc (s : State) :
    (noteFetch s).pc = s.pc := rfl
@[simp] theorem noteFetch_mem (s : State) :
    (noteFetch s).mem = s.mem := rfl
@[simp] theorem noteFetch_image (s : State) :
    (noteFetch s).image = s.image := rfl
@[simp] theorem noteFetch_status (s : State) :
    (noteFetch s).status = s.status := rfl
@[simp] theorem noteFetch_instr (s : State) :
    (noteFetch s).instr = { s.instr with memReads := if s.cfg.fetchInReadSet then s.instr.memReads.insert s.pc else s.instr.memReads } := rfl
@[simp] theorem noteFetch_cfg (s : State) :
    (noteFetch s).cfg = s.cfg := rfl
@[simp] theorem noteFetch_resume (s : State) :
    (noteFetch s).resume = s.resume := rfl
@[simp] theorem noteFetch_inputs (s : State) :
    (noteFetch s).inputs = s.inputs := rfl
@[simp] theorem noteFetch_inputPos (s : State) :
    (noteFetch s).inputPos = s.inputPos := rfl
@[simp] theorem noteFetch_freeCount (s : State) :
    (noteFetch s).freeCount = s.freeCount := rfl
@[simp] theorem noteFetch_events (s : State) :
    (noteFetch s).events = s.events := rfl
@[simp] theorem noteFetch_script (s : State) :
    (noteFetch s).script = s.script := rfl
@[simp] theorem noteFetch_reply (s : State) :
    (noteFetch s).reply = s.reply := rfl

@[simp] theorem traceFetch_acc (s : State) :
    (traceFetch s).acc = s.acc := rfl
@[simp] theorem traceFetch_pc (s : State) :
    (traceFetch s).pc = s.pc := rfl
@[simp] theorem traceFetch_mem (s : State) :
    (traceFetch s).mem = s.mem := rfl
@[simp] theorem traceFetch_image (s : State) :
    (traceFetch s).image = s.image := rfl
@[simp] theorem traceFetch_status (s : State) :
    (traceFetch s).status = s.status := rfl
@[simp] theorem traceFetch_instr (s : State) :
    (traceFetch s).instr = s.instr := rfl
@[simp] theorem traceFetch_cfg (s : State) :
    (traceFetch s).cfg = s.cfg := rfl
@[simp] theorem traceFetch_resume (s : State) :
    (traceFetch s).resume = s.resume := rfl
@[simp] theorem traceFetch_inputs (s : State) :
    (traceFetch s).inputs = s.inputs := rfl
@[simp] theorem traceFetch_inputPos (s : State) :
    (traceFetch s).inputPos = s.inputPos := rfl
@[simp] theorem traceFetch_freeCount (s : State) :
    (traceFetch s).freeCount = s.freeCount := rfl
@[simp] theorem traceFetch_events (s : State) :
    (traceFetch s).events = s.events ++ [.trace .medium (.instructionValue (s.mem.get s.pc))] ++ [.trace .medium (.dump s.mem s.acc s.pc)] := rfl
@[simp] theorem traceFetch_script (s : State) :
    (traceFetch s).script = s.script := rfl
@[simp] theorem traceFetch_reply (s : State) :
    (traceFetch s).reply = s.reply := rfl

@[simp] theorem advance_acc (s : State) :
    (advance s).acc = s.acc := rfl
@[simp] theorem advance_pc (s : State) :
    (advance s).pc = s.pc + 1 := rfl
@[simp] theorem advance_mem (s : State) :
    (advance s).mem = s.mem := rfl
@[simp] theorem advance_image (s : State) :
    (advance s).image = s.image := rfl
@[simp] theorem advance_status (s : State) :
    (advance s).status = s.status := rfl
@[simp] theorem advance_instr (s : State) :
    (advance s).instr = s.instr := rfl
@[simp] theorem advance_cfg (s : State) :
    (advance s).cfg = s.cfg := rfl
@[simp] theorem advance_resume (s : State) :
    (advance s).resume = s.resume := rfl
@[simp] theorem advance_inputs (s : State) :
    (advance s).inputs = s.inputs := rfl
@[simp] theorem advance_inputPos (s : State) :
    (advance s).inputPos = s.inputPos := rfl
@[simp] theorem advance_freeCount (s : State) :
    (advance s).freeCount = s.freeCount := rfl
@[simp] theorem advance_events (s : State) :
    (advance s).events = s.events := rfl
@[simp] theorem advance_script (s : State) :
    (advance s).script = s.script := rfl
@[simp] theorem advance_reply (s : State) :
    (advance s).reply = s.reply := rfl

@[simp] theorem hostReset_acc (s : State) :
    (hostReset s).acc = 0 := rfl
@[simp] theorem hostReset_pc (s : State) :
    (hostReset s).pc = 0 := rfl
@[simp] theorem hostReset_mem (s : State) :
    (hostReset s).mem = s.image := rfl
@[simp] theorem hostReset_image (s : State) :
    (hostReset s).image = s.image := rfl
@[simp] theorem hostReset_status (s : State) :
    (hostReset s).status = .ready := rfl
@[simp] theorem hostReset_instr (s : State) :
    (hostReset s).instr = .cleared := rfl
@[simp] theorem hostReset_cfg (s : State) :
    (hostReset s).cfg = s.cfg := rfl
@[simp] theorem hostReset_resume (s : State) :
    (hostReset s).resume = s.resume := rfl
@[simp] theorem hostReset_inputs (s : State) :
    (hostReset s).inputs = s.inputs := rfl
@[simp] theorem hostReset_inputPos (s : State) :
    (hostReset s).inputPos = s.inputPos := rfl
@[simp] theorem hostReset_freeCount (s : State) :
    (hostReset s).freeCount = s.freeCount := rfl
@[simp] theorem hostReset_events (s : State) :
    (hostReset s).events = s.events := rfl
@[simp] theorem hostReset_script (s : State) :
    (hostReset s).script = s.script := rfl
@[simp] theorem hostReset_reply (s : State) :
    (hostReset s).reply = .nothing := rfl

end Sys2Proof.Machine
end

