-- ==== Sys2Proof/Laws/Ops.lean ====
section
/-! SUPPORT. For each shared operation, everything it can do, said once. -/

namespace Sys2Proof.Machine

theorem withAddr_valid (i : Instr) {addr : Nat} (s body : State) (h : addr < 100) : withAddr i addr s body = body := by
  simp [withAddr, addrValid, h]

theorem withAddr_invalid (i : Instr) {addr : Nat} (s body : State) (h : ¬addr < 100) :
    withAddr i addr s body = raiseFatal .addressOutOfRange (s.pc - 1) (some (encode i)) s := by
  simp [withAddr, addrValid, h, fetchedFrom]

/-- What the defensive operand check can answer. -/
theorem withAddr_cases (i : Instr) (addr : Nat) (s body : State) :
    (addr < 100 ∧ withAddr i addr s body = body) ∨
    (¬addr < 100 ∧ withAddr i addr s body = raiseFatal .addressOutOfRange (s.pc - 1) (some (encode i)) s) := by
  by_cases h : addr < 100
  · exact .inl ⟨h, withAddr_valid i s body h⟩
  · exact .inr ⟨h, withAddr_invalid i s body h⟩

/-- All that the shared body of ADD and SUB writes. -/
theorem arith_eq (i : Instr) (op : Int → Int → Int) (addr : Nat) (s : State) :
    arith i op addr s =
      { s with
        acc := cap (op s.acc.val (s.mem.get addr).val)
        instr := { s.instr with accRead := true, accWritten := true, memReads := s.instr.memReads.insert addr }
        events := s.events ++
          [.trace .low (.teaching i [s.acc, s.mem.get addr] (cap (op s.acc.val (s.mem.get addr).val)).val)]
        status := .ready
        reply := .outcome .continued } := rfl

/-- All that the shared end of the branches writes. -/
theorem branch_eq (i : Instr) (xs : List Word) (taken : Bool) (addr : Nat) (s : State) :
    branch i xs taken addr s =
      { s with
        pc := if taken then addr else s.pc
        events := s.events ++ [.trace .low (.teaching i xs (if taken then addr else s.pc))]
        status := .ready
        reply := .outcome .continued } := by
  cases taken <;> rfl

/-- The events an unspecified trace leaves: the old ones, and at most one low-verbosity trace after them. -/
theorem maybeTeach_events_cases (i : Instr) (xs : List Word) (r : Nat) (s : State) :
    (maybeTeach i xs r s).events = s.events ∨
    (maybeTeach i xs r s).events = s.events ++ [.trace .low (.teaching i xs r)] := by
  rw [maybeTeach_events]
  split
  · exact .inr rfl
  · exact .inl rfl

/-- Where the integer of a Blocking INP comes from. -/
theorem nextInput_cases (s : State) :
    (∃ v rest, s.inputs = v :: rest ∧ nextInput s = some v) ∨
    (s.inputs = [] ∧ s.cfg.producerAnswers = true ∧ nextInput s = some (Config.freeInput s.inputPos)) ∨
    (s.inputs = [] ∧ s.cfg.producerAnswers = false ∧ nextInput s = none) := by
  unfold nextInput
  split
  · exact .inl ⟨_, _, by assumption, rfl⟩
  · cases h : s.cfg.producerAnswers <;> simp_all

/-- All that phases 1 to 3 of a step leave for the execution of the fetched word. -/
theorem afterFetch_eq (s : State) :
    afterFetch s =
      { s with
        pc := s.pc + 1
        instr := ⟨false, false, if s.cfg.fetchInReadSet then [s.pc] else [], []⟩
        events := s.events ++ [.trace .high (.fetchAddress s.pc)] ++ [.trace .medium (.instructionValue (s.mem.get s.pc))]
          ++ [.trace .medium (.dump s.mem s.acc s.pc)] } := rfl

/-- What an engine step that answers a next state can have done. -/
theorem engineStep_next {s t : State} (h : engineStep s = .next t) :
    s.status = .ready ∧ s.cfg.traceReturns = true ∧
    ((s.pc < 100 ∧ exec (decode (fetchedWord s)) (afterFetch s) = .next t) ∨ (¬s.pc < 100 ∧ t = fetchPastEnd s)) := by
  unfold engineStep at h
  split at h
  · split at h
    · refine ⟨by assumption, by assumption, ?_⟩
      split at h <;> rename_i hp
      · exact .inl ⟨hp, h⟩
      · exact .inr ⟨hp, (Host.Outcome.next.inj h).symm⟩
    · cases h
  all_goals cases h

/-- What a delivered input that answers a next state can have done. -/
theorem deliverInput_next {v : Int} {s t : State} (h : deliverInput v s = .next t) :
    s.cfg.inputMode = .suspension ∧
    ∃ r, s.status = .awaitingInput r ∧ t = { accWrite (enc v) s with status := .ready, reply := .resume r } := by
  unfold deliverInput at h
  split at h
  · cases h
  · refine ⟨by assumption, ?_⟩
    split at h
    · exact ⟨_, by assumption, (Host.Outcome.next.inj h).symm⟩
    · cases h

/-- What a turn of a run that answers a next state can have done. -/
theorem runTurn_next {rest : List HostRequest} {s t : State} (h : runTurn rest s = .next t) :
    ∃ u, engineStep { s with resume := true, script := rest } = .next u ∧
      ((u.status = .ready ∧ t = { u with script := .run :: rest, reply := .nothing }) ∨
        (u.status ≠ .ready ∧ t = u)) := by
  unfold runTurn at h
  split at h
  · refine ⟨_, by assumption, ?_⟩
    split at h <;> rename_i hr
    · exact .inl ⟨hr, (Host.Outcome.next.inj h).symm⟩
    · exact .inr ⟨hr, (Host.Outcome.next.inj h).symm⟩
  all_goals cases h

/-- What a step that answers a next state can have done: one engine step, a turn of a run, a delivery or a reset. -/
theorem step_next {s t : State} (h : step s = .next t) :
    (s.script = [] ∧ engineStep s = .next t) ∨
    (∃ r rest, s.script = .step r :: rest ∧ engineStep { s with resume := r, script := rest } = .next t) ∨
    (∃ rest, s.script = .run :: rest ∧ runTurn rest s = .next t) ∨
    (∃ v rest, s.script = .deliverInput v :: rest ∧ deliverInput v { s with script := rest } = .next t) ∨
    (∃ rest, s.script = .reset :: rest ∧ t = hostReset { s with script := rest }) := by
  unfold step serve at h
  split at h
  · exact .inl ⟨by assumption, h⟩
  · exact .inr (.inl ⟨_, _, by assumption, h⟩)
  · exact .inr (.inr (.inl ⟨_, by assumption, h⟩))
  · exact .inr (.inr (.inr (.inl ⟨_, _, by assumption, h⟩)))
  · exact .inr (.inr (.inr (.inr ⟨_, by assumption, (Host.Outcome.next.inj h).symm⟩)))

end Sys2Proof.Machine
end

