-- ==== Sys2Proof/Laws/PerInstr.lean ====
section
/-! SUPPORT. A law of every constructor of Instr: a well-formed instruction is encoded in its own row's range of the opcode
table (30_encoding R81, R83, R91; 40_assembler R132 for DAT). -/

namespace Sys2Proof.Laws

/-- The inclusive range of words of a constructor's row in spec/opcode_table.json; DAT has no range of its own and emits
any word. -/
def EncodedRange.rowRange : Instr → Nat × Nat
  | .hlt => (0, 0)
  | .illegalLow0xx _ => (1, 99)
  | .add _ => (100, 199)
  | .sub _ => (200, 299)
  | .sta _ => (300, 399)
  | .illegalUnassigned4xx _ => (400, 499)
  | .lda _ => (500, 599)
  | .bra _ => (600, 699)
  | .brz _ => (700, 799)
  | .brp _ => (800, 899)
  | .illegalReserved900 => (900, 900)
  | .inp => (901, 901)
  | .out => (902, 902)
  | .illegalHigh9xx _ => (903, 999)
  | .dat _ => (0, 999)

/-- A well-formed instruction's word lies in its row's range and is the number of its encoding. -/
def EncodedRange.Statement (i : Instr) : Prop :=
  WellFormed i → ((encode i).val : Int) = encodeValue i ∧
    (EncodedRange.rowRange i).1 ≤ (encode i).val ∧ (encode i).val ≤ (EncodedRange.rowRange i).2

theorem EncodedRange.hlt : EncodedRange.Statement .hlt := by
  unfold EncodedRange.Statement
  decide

theorem EncodedRange.illegalLow0xx (w : Word) : EncodedRange.Statement (.illegalLow0xx w) := by
  simp only [EncodedRange.Statement, WellFormed, Instr.wellFormed, inRange, Bool.and_eq_true, decide_eq_true_eq, encode,
    encodeValue, Machine.cap, EncodedRange.rowRange]
  omega

theorem EncodedRange.add (addr : Nat) : EncodedRange.Statement (.add addr) := by
  simp only [EncodedRange.Statement, WellFormed, Instr.wellFormed, addrOk, decide_eq_true_eq, encode, encodeValue,
    Machine.cap, EncodedRange.rowRange]
  omega

theorem EncodedRange.sub (addr : Nat) : EncodedRange.Statement (.sub addr) := by
  simp only [EncodedRange.Statement, WellFormed, Instr.wellFormed, addrOk, decide_eq_true_eq, encode, encodeValue,
    Machine.cap, EncodedRange.rowRange]
  omega

theorem EncodedRange.sta (addr : Nat) : EncodedRange.Statement (.sta addr) := by
  simp only [EncodedRange.Statement, WellFormed, Instr.wellFormed, addrOk, decide_eq_true_eq, encode, encodeValue,
    Machine.cap, EncodedRange.rowRange]
  omega

theorem EncodedRange.illegalUnassigned4xx (w : Word) : EncodedRange.Statement (.illegalUnassigned4xx w) := by
  simp only [EncodedRange.Statement, WellFormed, Instr.wellFormed, inRange, Bool.and_eq_true, decide_eq_true_eq, encode,
    encodeValue, Machine.cap, EncodedRange.rowRange]
  omega

theorem EncodedRange.lda (addr : Nat) : EncodedRange.Statement (.lda addr) := by
  simp only [EncodedRange.Statement, WellFormed, Instr.wellFormed, addrOk, decide_eq_true_eq, encode, encodeValue,
    Machine.cap, EncodedRange.rowRange]
  omega

theorem EncodedRange.bra (addr : Nat) : EncodedRange.Statement (.bra addr) := by
  simp only [EncodedRange.Statement, WellFormed, Instr.wellFormed, addrOk, decide_eq_true_eq, encode, encodeValue,
    Machine.cap, EncodedRange.rowRange]
  omega

theorem EncodedRange.brz (addr : Nat) : EncodedRange.Statement (.brz addr) := by
  simp only [EncodedRange.Statement, WellFormed, Instr.wellFormed, addrOk, decide_eq_true_eq, encode, encodeValue,
    Machine.cap, EncodedRange.rowRange]
  omega

theorem EncodedRange.brp (addr : Nat) : EncodedRange.Statement (.brp addr) := by
  simp only [EncodedRange.Statement, WellFormed, Instr.wellFormed, addrOk, decide_eq_true_eq, encode, encodeValue,
    Machine.cap, EncodedRange.rowRange]
  omega

theorem EncodedRange.illegalReserved900 : EncodedRange.Statement .illegalReserved900 := by
  unfold EncodedRange.Statement
  decide

theorem EncodedRange.inp : EncodedRange.Statement .inp := by
  unfold EncodedRange.Statement
  decide

theorem EncodedRange.out : EncodedRange.Statement .out := by
  unfold EncodedRange.Statement
  decide

theorem EncodedRange.illegalHigh9xx (w : Word) : EncodedRange.Statement (.illegalHigh9xx w) := by
  simp only [EncodedRange.Statement, WellFormed, Instr.wellFormed, inRange, Bool.and_eq_true, decide_eq_true_eq, encode,
    encodeValue, Machine.cap, EncodedRange.rowRange]
  omega

theorem EncodedRange.dat (v : Int) : EncodedRange.Statement (.dat v) := by
  simp only [EncodedRange.Statement, WellFormed, Instr.wellFormed, datOk, Bool.and_eq_true, decide_eq_true_eq, encode,
    encodeValue, Machine.cap, Machine.enc, EncodedRange.rowRange, Config.wordMod]
  split <;> omega

end Sys2Proof.Laws
end

