-- ==== Sys2Proof/Tests/Slice0.lean ====
section
/-! SUPPORT. The model's own tests, from the vectors of 95_test_vectors and hand calculation from the rules; a witness for
every statement with hypotheses stands in the second half. -/

namespace Sys2Proof.Tests

open Sys2Proof Sys2Proof.Machine

/-! ## Helpers -/

/-- The conventions of 95_test_vectors: `FETCH_IN_READ_SET = false`, `MSG` the completion message. -/
def cfgFor (mode : InputMode) : EngineConfig := ⟨mode, .high, false, "MSG", true, true, true⟩

/-- Memory with the listed words in it. -/
def memWith (cells : List (Nat × Word)) : Memory := cells.foldl (fun m c => m.set c.1 c.2) []

/-- The state before a step: `pc = a`, `mem[a] = w`, the accumulator and the other words as given. -/
def before (a : Nat) (w acc : Word) (cells : List (Nat × Word) := []) (mode : InputMode := .blocking) : State :=
  { State.reset with pc := a, acc := acc, mem := memWith (cells ++ [(a, w)]), cfg := cfgFor mode }

/-- The answer is a next state with the property. -/
def nextIs (r : Result) (p : State → Bool) : Bool :=
  match r with
  | .next t => p t
  | _ => false

/-- The answer is the refusal. -/
def refusedAs (r : Result) (why : Refusal) : Bool :=
  match r with
  | .refused x => decide (x = why)
  | _ => false

/-- The accumulator, the counter and the word at an address after a step. -/
def leaves (s : State) (acc : Word) (pc : Nat) : Bool :=
  nextIs (step s) fun t => decide (t.acc = acc) && decide (t.pc = pc) && decide (t.status = .ready)

/-- The fatal error a step ends with. -/
def faultsWith (s : State) (k : FatalKind) (a : Nat) (v : Option Word) : Bool :=
  nextIs (step s) fun t => decide (t.status = .faulted k a v) && decide (t.reply = .fatal k a v)

/-! ## WellFormed refuses an ill-formed term of every kind (30_encoding R82, R83; 40_assembler R127) -/

theorem test_wellformed_add : ¬WellFormed (.add 100) := by decide
theorem test_wellformed_sub : ¬WellFormed (.sub 100) := by decide
theorem test_wellformed_sta : ¬WellFormed (.sta 100) := by decide
theorem test_wellformed_lda : ¬WellFormed (.lda 100) := by decide
theorem test_wellformed_bra : ¬WellFormed (.bra 100) := by decide
theorem test_wellformed_brz : ¬WellFormed (.brz 100) := by decide
theorem test_wellformed_brp : ¬WellFormed (.brp 100) := by decide
theorem test_wellformed_low : ¬WellFormed (.illegalLow0xx 0) ∧ ¬WellFormed (.illegalLow0xx 100) := by decide
theorem test_wellformed_4xx :
    ¬WellFormed (.illegalUnassigned4xx 399) ∧ ¬WellFormed (.illegalUnassigned4xx 500) := by decide
theorem test_wellformed_high : ¬WellFormed (.illegalHigh9xx 902) := by decide
theorem test_wellformed_dat : ¬WellFormed (.dat 1000) ∧ ¬WellFormed (.dat (-1000)) := by decide
theorem test_wellformed_ok : WellFormed (.add 99) ∧ WellFormed (.illegalLow0xx 99) ∧ WellFormed (.dat (-999)) := by decide

/-! ## Decoding: words written out from 30_encoding R81 (`100*op + n`) and from vectors X1 to X25 -/

theorem test_decode_hlt : decode 0 = .hlt := by decide
theorem test_decode_low : decode 1 = .illegalLow0xx 1 ∧ decode 99 = .illegalLow0xx 99 := by decide
theorem test_decode_add : decode 100 = .add 0 ∧ decode 199 = .add 99 := by decide
theorem test_decode_sub : decode 200 = .sub 0 ∧ decode 299 = .sub 99 := by decide
theorem test_decode_sta : decode 300 = .sta 0 ∧ decode 399 = .sta 99 := by decide
theorem test_decode_4xx : decode 400 = .illegalUnassigned4xx 400 ∧ decode 499 = .illegalUnassigned4xx 499 := by decide
theorem test_decode_lda : decode 500 = .lda 0 ∧ decode 599 = .lda 99 := by decide
theorem test_decode_bra : decode 600 = .bra 0 ∧ decode 699 = .bra 99 := by decide
theorem test_decode_brz : decode 700 = .brz 0 ∧ decode 799 = .brz 99 := by decide
theorem test_decode_brp : decode 800 = .brp 0 ∧ decode 899 = .brp 99 := by decide
theorem test_decode_900 : decode 900 = .illegalReserved900 := by decide
theorem test_decode_inp : decode 901 = .inp := by decide
theorem test_decode_out : decode 902 = .out := by decide
theorem test_decode_high : decode 903 = .illegalHigh9xx 903 ∧ decode 999 = .illegalHigh9xx 999 := by decide
theorem test_decode_no_word : decodeNat 1000 = .error (.notAWord 1000) := rfl
/-- Vectors A43, A42, A46: DAT -999 is 1, DAT -1 is 999, DAT -500 is 500. -/
theorem test_encode_dat : encode (.dat (-999)) = 1 ∧ encode (.dat (-1)) = 999 ∧ encode (.dat (-500)) = 500 := by decide
theorem test_decodeTableWord :
    decodeTableWord 16 902 = some .out ∧ decodeTableWord 10 105 = some (.add 5) ∧ decodeTableWord 16 1000 = none := by
  decide
theorem test_withFetchWord : nextIs (step (State.reset.withFetchWord 16 605)) (fun t => decide (t.pc = 5)) = true := by
  decide

/-! ## One step of every instruction (95_test_vectors part 2) -/

/-- AD1. -/
theorem test_add : leaves (before 0 105 2 [(5, 3)]) 5 1 = true := by decide
/-- AD8: at the last address; the counter shows 100. -/
theorem test_add_last : leaves (before 99 199 5) 204 100 = true := by decide
/-- SU1. -/
theorem test_sub_wraps : leaves (before 0 209 3 [(9, 5)]) 998 1 = true := by decide
/-- SU6. -/
theorem test_sub_signed : leaves (before 0 209 100 [(9, 700)]) 400 1 = true := by decide
/-- ST1, with the `instr` the vectors give STA. -/
theorem test_sta :
    nextIs (step (before 1 399 2)) (fun t => decide (t.mem.get 99 = 2) && decide (t.acc = 2) && decide (t.pc = 2) &&
      decide (t.instr = ⟨true, false, [], [99]⟩)) = true := by decide
/-- ST3: a store of 0 over the instruction itself. -/
theorem test_sta_itself : nextIs (step (before 4 304 0)) (fun t => decide (t.mem = []) && decide (t.pc = 5)) = true := by
  decide
/-- LD2: loads its own word. -/
theorem test_lda_itself : leaves (before 0 500 7) 500 1 = true := by decide
/-- LD4, with the `instr` the vectors give LDA. -/
theorem test_lda_unwritten :
    nextIs (step (before 0 598 7)) (fun t => decide (t.acc = 0) && decide (t.instr = ⟨false, true, [98], []⟩)) = true := by
  decide
/-- BA4. -/
theorem test_bra_last : leaves (before 99 650 3) 3 50 = true := by decide
/-- BZ1 and BZ2. -/
theorem test_brz : leaves (before 2 707 0) 0 7 = true ∧ leaves (before 2 707 1) 1 3 = true := by decide
/-- BP2 and BP3. -/
theorem test_brp : leaves (before 4 810 499) 499 10 = true ∧ leaves (before 4 810 500) 500 5 = true := by decide
/-- IN4 and IN13. -/
theorem test_inp_blocking :
    leaves { before 0 901 9 with inputs := [-3] } 997 1 = true ∧
      leaves { before 0 901 9 with inputs := [-1234] } 766 1 = true := by decide
/-- INP in Suspension mode: the accumulator as it was, `awaiting-input(resume)`. -/
theorem test_inp_suspension :
    nextIs (step { before 0 901 9 [] .suspension with resume := true })
      (fun t => decide (t.acc = 9) && decide (t.pc = 1) && decide (t.status = .awaitingInput true)) = true := by decide
/-- OU4: 500 is printed as -500. -/
theorem test_out : ∃ t, step (before 2 902 500) = .next t ∧ t.acc = 500 ∧
    (t.events.drop 3).head? = some (.output (-500)) := by
  refine ⟨_, rfl, rfl, ?_⟩
  show (List.drop 3 (if Config.freeTrace 0 = true then _ else _)).head? = _
  split <;> rfl
/-- HL1. -/
theorem test_hlt : ∃ t, step (before 0 0 0) = .next t ∧ t.status = .halted ∧ t.pc = 1 ∧
    t.reply = .outcome (.halted .explicitHalt) ∧ (t.events.drop 3).head? = some (.completion "MSG") := by
  refine ⟨_, rfl, rfl, rfl, rfl, ?_⟩
  show (List.drop 3 (if Config.freeTrace 0 = true then _ else _)).head? = _
  split <;> rfl
/-- HL2: at the last address, no fault. -/
theorem test_hlt_last :
    nextIs (step (before 99 0 0)) (fun t => decide (t.status = .halted) && decide (t.pc = 100)) = true := by decide
/-- X2 and X3. -/
theorem test_low_faults :
    faultsWith (before 6 1 42) (.invalidInstruction .low0xx) 6 (some 1) = true ∧
      faultsWith (before 6 99 42) (.invalidInstruction .low0xx) 6 (some 99) = true := by decide
/-- X10 and X12. -/
theorem test_4xx_faults :
    faultsWith (before 6 400 42) (.invalidInstruction .unassigned4xx) 6 (some 400) = true ∧
      faultsWith (before 6 499 42) (.invalidInstruction .unassigned4xx) 6 (some 499) = true := by decide
/-- X21. -/
theorem test_900_faults : faultsWith (before 6 900 42) (.invalidInstruction .reserved900) 6 (some 900) = true := by decide
/-- X24, and what every fatal row leaves. -/
theorem test_high_faults :
    faultsWith (before 6 903 42) (.invalidInstruction .high9xx) 6 (some 903) = true ∧
      nextIs (step (before 6 903 42)) (fun t => decide (t.pc = 7) && decide (t.acc = 42) &&
        decide (t.instr = .cleared) && decide (t.events.length = 3)) = true := by decide
/-- A DAT word in the way of execution runs (P7's last sentence: DAT 600 is executed as BRA 0). -/
theorem test_dat_runs : nextIs (exec (.dat 600) { before 2 600 0 with pc := 3 }) (fun t => decide (t.pc = 0)) = true := by
  decide
/-- F1. -/
theorem test_fetch_past_end :
    faultsWith { before 5 0 3 with pc := 100 } .fetchOutOfRange 100 none = true ∧
      nextIs (step { before 5 0 3 with pc := 100 }) (fun t => decide (t.pc = 100) && decide (t.acc = 3) &&
        decide (t.events = [.trace .high (.fetchAddress 100)])) = true := by decide
/-- 70_reset_and_hazards R273: a trace consumer that never returns leaves the step stuck. -/
theorem test_trace_stuck : (step { before 0 105 2 with cfg := { cfgFor .blocking with traceReturns := false } } matches
    .fault .traceNeverReturns) = true := by decide
/-- HV9: the events of the step AD1. -/
theorem test_trace_order :
    nextIs (step (before 0 105 2 [(5, 3)])) (fun t =>
      decide ((t.events.take 3) = [.trace .high (.fetchAddress 0), .trace .medium (.instructionValue 105),
        .trace .medium (.dump [(0, 105), (5, 3)] 2 0)]) &&
      decide ((t.events.drop 3).map Event.isLowTrace = [true])) = true := by decide
/-- HV8: a threshold of 0 shows no trace event. -/
theorem test_threshold_none :
    nextIs (step (withThreshold .none (before 0 105 2 [(5, 3)]))) (fun t => decide (shownEvents t = [])) = true := by decide

/-! ## The host's operations (95_test_vectors part 5) -/

/-- HV3, D2, D3. -/
theorem test_step_refused :
    refusedAs (step { before 0 105 2 with status := .halted }) .stepWhenHalted = true ∧
      refusedAs (step { before 0 105 2 with status := .awaitingInput true }) .stepWhileAwaitingInput = true ∧
      refusedAs (step { before 0 105 2 with status := .faulted .fetchOutOfRange 100 none }) .stepWhenFaulted = true := by
  decide
/-- P9: `DeliverInput(-50)` gives 950 and hands back the flag. -/
theorem test_deliver :
    nextIs (step { before 3 0 300 [] .suspension with status := .awaitingInput true, script := [.deliverInput (-50)] })
      (fun t => decide (t.acc = 950) && decide (t.pc = 3) && decide (t.status = .ready) && decide (t.reply = .resume true))
      = true := by decide
/-- P9's misuse row. -/
theorem test_deliver_refused :
    refusedAs (step { before 3 0 300 [] .suspension with script := [.deliverInput 1] }) .inputNotAwaited = true ∧
      refusedAs (step { before 3 0 300 with script := [.deliverInput 1] }) .deliveryInBlockingMode = true := by decide
/-- HV2: `mem[3]` is the image's word again. -/
theorem test_reset :
    nextIs (step { before 3 902 42 with status := .halted, image := [(0, 505)], script := [.reset] })
      (fun t => decide (t.mem = [(0, 505)]) && decide (t.pc = 0) && decide (t.acc = 0) && decide (t.status = .ready)) = true := by
  decide
/-- P9's first row: `Run` returns after the one step that awaits input. -/
theorem test_run_returns :
    nextIs (step { before 0 901 0 [] .suspension with script := [.run] })
      (fun t => decide (t.reply = .outcome (.awaitingInput true)) && decide (t.script = [])) = true := by decide
/-- 41_step_cycle R168: a run goes on after `continued`. -/
theorem test_run_goes_on :
    nextIs (step { before 0 105 2 [(5, 3)] with script := [.run] })
      (fun t => decide (t.reply = .nothing) && decide (t.script = [.run]) && decide (t.acc = 5)) = true := by decide
/-- HV7. -/
theorem test_construct_refused :
    refusedAs (construct (List.replicate 99 0) (cfgFor .blocking) []) .badImage = true ∧
      refusedAs (construct (1000 :: List.replicate 99 0) (cfgFor .blocking) []) .badImage = true ∧
      refusedAs (construct (-1 :: List.replicate 99 0) (cfgFor .blocking) []) .badImage = true := by decide +kernel
/-- HV1, for the image of P1. -/
theorem test_construct :
    nextIs (construct ([901, 902] ++ List.replicate 98 0) (cfgFor .blocking) [5])
      (fun t => decide (t.mem = [(0, 901), (1, 902)]) && decide (t.image = t.mem) && decide (t.pc = 0)) = true := by decide +kernel

/-! ## The assembler (95_test_vectors part 4) -/

/-- The first words and the used length of an accepted source. -/
def assemblesTo (mode : ErrorMode) (lines : List String) (words : List Word) : Bool :=
  match assemble mode (lines.map String.toList) with
  | .success out used => decide (out.take used = words) && decide (out.length = 100)
  | .failure _ => false

/-- The errors of a rejected source. -/
def rejects (mode : ErrorMode) (lines : List String) (errors : List AsmError) : Bool :=
  match assemble mode (lines.map String.toList) with
  | .success _ _ => false
  | .failure es => decide (es = errors)

theorem test_asm_A1 : assemblesTo .first ["INP", "OUT", "HLT"] [901, 902, 0] = true := by decide
theorem test_asm_A3 : assemblesTo .first ["Lda 05"] [505] = true := by decide
theorem test_asm_A9 : assemblesTo .first ["# only comment", "   "] [] = true := by decide
theorem test_asm_A30 :
    assemblesTo .first ["loop LDA x", "OUT", "", "# c", "BRA loop", "x DAT 7"] [503, 902, 600, 7] = true := by decide
theorem test_asm_A35 : assemblesTo .first ["5 DAT 9", "LDA 5"] [9, 500] = true := by decide
theorem test_asm_A36 : assemblesTo .first ["A DAT 1", "a DAT 2", "LDA A", "LDA a"] [1, 2, 500, 501] = true := by decide
theorem test_asm_A43 : assemblesTo .first ["DAT -999", "DAT -0", "DAT 007"] [1, 0, 7] = true := by decide
theorem test_asm_A12 : rejects .first ["LOAD 5"] [.invalidMnemonic 1 ['5']] = true := by decide
theorem test_asm_A14 : rejects .first ["LDA 100"] [.badArgument 1 .lda ['1', '0', '0'] .tooLong] = true := by decide
theorem test_asm_A20 :
    rejects .first ["a DAT 1", "", "# c", "  ", "a DAT 2"] [.duplicateLabel 5 ['a'] 1] = true := by decide
theorem test_asm_A53 : rejects .first ["FOO", "BAR 1"] [.invalidMnemonic 1 ['F', 'O', 'O']] = true := by decide
theorem test_asm_A54 :
    rejects .all ["FOO", "BAR 1", "ADD", "OUT 1", "DAT 1000"]
      [.invalidMnemonic 1 ['F', 'O', 'O'], .invalidMnemonic 2 ['1'], .missingArgument 3 .add,
        .unexpectedArgument 4 .out ['1'], .badArgument 5 .dat ['1', '0', '0', '0'] .outOfRange] = true := by decide
theorem test_asm_A10 :
    rejects .first ["x ADD 5 6 "] [.invalidLine 1 ['x', ' ', 'A', 'D', 'D', ' ', '5', ' ', '6']] = true := by decide

/-! ## Witnesses: for every statement with hypotheses, values that meet them, each clause at the ends of its range -/

/-- AD1's state, asked for one step. -/
def sAdd : State := before 0 105 2 [(5, 3)]
/-- An INP in Blocking mode with a known input. -/
def sInp : State := { before 0 901 9 with inputs := [-3] }
/-- An INP in Suspension mode. -/
def sWait : State := before 0 901 9 [] .suspension
/-- An input is awaited and delivered. -/
def sGive : State :=
  { before 1 0 9 [] .suspension with status := .awaitingInput true, script := [.deliverInput 1000] }

theorem witness_DecodeFollowsTheRanges :
    (0 : Word).val = 0 ∧ (1 ≤ (1 : Word).val ∧ (99 : Word).val ≤ 99) ∧ (100 ≤ (100 : Word).val ∧ (199 : Word).val ≤ 199) ∧
      (200 ≤ (200 : Word).val ∧ (299 : Word).val ≤ 299) ∧ (300 ≤ (300 : Word).val ∧ (399 : Word).val ≤ 399) ∧
      (400 ≤ (400 : Word).val ∧ (499 : Word).val ≤ 499) ∧ (500 ≤ (500 : Word).val ∧ (599 : Word).val ≤ 599) ∧
      (600 ≤ (600 : Word).val ∧ (699 : Word).val ≤ 699) ∧ (700 ≤ (700 : Word).val ∧ (799 : Word).val ≤ 799) ∧
      (800 ≤ (800 : Word).val ∧ (899 : Word).val ≤ 899) ∧ (900 : Word).val = 900 ∧ (901 : Word).val = 901 ∧
      (902 : Word).val = 902 ∧ (903 ≤ (903 : Word).val ∧ (999 : Word).val ≤ 999) := by decide

theorem witness_EncodedInstructionDecodesBack :
    (∀ i ∈ [Instr.hlt, .illegalLow0xx 1, .illegalLow0xx 99, .add 0, .add 99, .sub 99, .sta 99, .illegalUnassigned4xx 400,
      .illegalUnassigned4xx 499, .lda 99, .bra 99, .brz 99, .brp 99, .illegalReserved900, .inp, .out,
      .illegalHigh9xx 903, .illegalHigh9xx 999], WellFormed i) ∧ ∀ v, Instr.add 99 ≠ .dat v :=
  ⟨by decide, by intro v h; cases h⟩

theorem witness_DecodedWordEncodesBack :
    decodeNat 999 = .ok (.illegalHigh9xx 999) ∧ decodeNat 0 = .ok .hlt ∧ 999 < 1000 ∧ 1000 ≤ 1000 :=
  ⟨rfl, rfl, by decide, by decide⟩

theorem witness_DatWordIsOffsetEncoded :
    ((-999 : Int) ≤ -999 ∧ (-999 : Int) < 0) ∧ ((999 : Int) ≤ 999 ∧ ¬(999 : Int) < 0) ∧ (1 : Int) ≤ 999 ∧
      dec (encode (.dat (-500))) = -500 ∧ dec (encode (.dat 499)) = 499 ∧ dec (encode (.dat 500)) = -500 := by decide

theorem witness_AssemblesWithAddress :
    ((['5'] : Token) ≠ [] ∧ (['9', '9'] : Token).length ≤ 2 ∧ (['9', '9'] : Token).all isDigit = true ∧
      lookupLabel [] ['9', '9'] = none) ∧ lookupLabel [⟨['x'], 99, 0⟩] ['x'] = some ⟨['x'], 99, 0⟩ ∧ 99 < 100 := by decide
theorem witness_AddResult : 100 ≤ (100 : Word).val ∧ (199 : Word).val ≤ 199 ∧ 99 < 100 ∧ 0 < 100 := by decide
theorem witness_SubResult : 200 ≤ (200 : Word).val ∧ (299 : Word).val ≤ 299 ∧ 99 < 100 ∧ 0 < 100 := by decide
theorem witness_SignedViewOfAddAndSub :
    99 < 100 ∧ dec (499 : Word) + dec (0 : Word) ≤ 499 ∧ -500 ≤ dec (500 : Word) + dec (0 : Word) ∧
      -500 ≤ dec (500 : Word) - dec (0 : Word) ∧ dec (0 : Word) - dec (501 : Word) ≤ 499 := by decide
theorem witness_StaResult :
    300 ≤ (300 : Word).val ∧ (399 : Word).val ≤ 399 ∧ 99 < 100 ∧ 0 < 100 ∧ (98 : Nat) ≠ 99 := by decide
theorem witness_LdaResult : 500 ≤ (500 : Word).val ∧ (599 : Word).val ≤ 599 ∧ 99 < 100 ∧ 0 < 100 := by decide
theorem witness_BraResult : 600 ≤ (600 : Word).val ∧ (699 : Word).val ≤ 699 ∧ 99 < 100 ∧ 0 < 100 := by decide
theorem witness_BrzResult :
    700 ≤ (700 : Word).val ∧ (799 : Word).val ≤ 799 ∧ 99 < 100 ∧ (before 2 707 0).acc.val = 0 ∧
      (before 2 707 1).acc.val ≠ 0 := by decide
theorem witness_BrpResult :
    800 ≤ (800 : Word).val ∧ (899 : Word).val ≤ 899 ∧ 99 < 100 ∧ (before 4 810 499).acc.val < 500 ∧
      ¬(before 4 810 500).acc.val < 500 := by decide

theorem witness_InpBlockingResult :
    (sInp.cfg.inputMode = .blocking ∧ nextInput sInp = some (-3)) ∧ sInp.inputs = -3 :: [] ∧
      ((before 0 901 9).inputs = [] ∧ (before 0 901 9).cfg.producerAnswers = true) :=
  ⟨⟨rfl, rfl⟩, rfl, rfl, rfl⟩

theorem witness_InpSuspensionResult : sWait.cfg.inputMode = .suspension := rfl

/-- The collaborators that do not answer. -/
def sStuck : State := { before 0 901 9 with cfg := ⟨.blocking, .high, false, "MSG", false, false, false⟩ }

/-- A run is requested at an INP whose producer never answers; the trace consumer returns. -/
def sStuckInp : State :=
  { before 0 901 9 with cfg := ⟨.blocking, .high, false, "MSG", false, false, true⟩, script := [.run] }

theorem witness_StuckInsideTheStep :
    (sStuck.cfg.inputMode = .blocking ∧ sStuck.inputs = [] ∧ sStuck.cfg.producerAnswers = false) ∧
      sStuck.cfg.outputReturns = false ∧
      (sStuck.script = [] ∧ sStuck.status = .ready ∧ sStuck.cfg.traceReturns = false) ∧
      { sStuck with script := [.run] }.script = .run :: [] := ⟨⟨rfl, rfl, rfl⟩, rfl, ⟨rfl, rfl, rfl⟩, rfl⟩

theorem witness_OutResult : (before 2 902 500).cfg.outputReturns = true ∧ 500 ≤ (before 2 902 500).acc.val := by decide
theorem witness_HltResult : (before 0 0 0).cfg.outputReturns = true := rfl
theorem witness_collaborators : CollaboratorsAnswer sAdd ∧ CollaboratorsAnswer sInp ∧ CollaboratorsAnswer sWait :=
  ⟨⟨rfl, fun _ => rfl⟩, ⟨rfl, fun _ => rfl⟩, ⟨rfl, fun _ => rfl⟩⟩
theorem witness_DatRunsAsItsWord :
    ((-999 : Int) ≤ -999 ∧ (-999 : Int) ≤ 999) ∧ ((-999 : Int) ≤ 999 ∧ (999 : Int) ≤ 999) ∧ CollaboratorsAnswer sAdd :=
  ⟨by decide, by decide, witness_collaborators.1⟩
theorem witness_OperandOutOfRangeIsFatal :
    100 ≤ 100 ∧ Instr.brp 100 ∈ [Instr.add 100, .sub 100, .sta 100, .lda 100, .bra 100, .brz 100, .brp 100] := by decide
theorem witness_EveryInstructionCompletes :
    WellFormed (.dat (-999)) ∧ WellFormed (.illegalHigh9xx 999) ∧ CollaboratorsAnswer sAdd :=
  ⟨by decide, by decide, witness_collaborators.1⟩

theorem witness_OnlyStaWritesMemory :
    (∃ t, exec (.sta 99) sAdd = .next t) ∧ storeAddr (.sta 99) ≠ some 98 ∧ storeAddr (.dat 399) ≠ some 98 ∧
      storeAddr .out ≠ some 98 := ⟨⟨_, rfl⟩, by decide, by decide, by decide⟩
theorem witness_OnlyTheseWriteTheAccumulator :
    (∃ t, exec (.sta 99) sAdd = .next t) ∧ writesAcc sAdd.cfg.inputMode (effective (.sta 99)) = false ∧
      writesAcc .suspension (effective .inp) = false := ⟨⟨_, rfl⟩, by decide, by decide⟩
theorem witness_InstructionsKeepTheHostSide : ∃ t, exec .inp sInp = .next t := ⟨_, rfl⟩

/-- A step is requested, at 0 and at 99, and it completes. -/
theorem witness_step :
    (StepRequested sAdd ∧ sAdd.pc < 100 ∧ ∃ t, step sAdd = .next t) ∧
      StepRequested (before 99 199 5) ∧ (before 99 199 5).pc < 100 ∧ ∃ t, step (before 99 199 5) = .next t :=
  ⟨⟨⟨rfl, rfl⟩, by decide, _, rfl⟩, ⟨rfl, rfl⟩, by decide, _, rfl⟩
theorem witness_StepLeavesThePc :
    (StepRequested (before 99 650 3) ∧ (before 99 650 3).pc < 100 ∧ ∃ t, step (before 99 650 3) = .next t) ∧
      takenTarget 3 (decode 650) = some 50 ∧ classOf 400 = some .unassigned4xx :=
  ⟨⟨⟨rfl, rfl⟩, by decide, _, rfl⟩, by decide, by decide⟩
theorem witness_StepRunsTheDecodedInstruction :
    StepRequested sAdd ∧ sAdd.cfg.traceReturns = true ∧ sAdd.pc < 100 ∧ decode (wordAt sAdd sAdd.pc) = .add 5 :=
  ⟨⟨rfl, rfl⟩, rfl, by decide, by decide⟩
theorem witness_StepAndRunRequestsRunTheEngine :
    ({ sAdd with script := [.step true] }.script = .step true :: [] ∧ sAdd.status = .ready ∧
        sAdd.cfg.traceReturns = true ∧ sAdd.pc < 100) ∧
      { sAdd with script := [.run] }.script = .run :: [] ∧
      (∃ u, exec (decode (wordAt sAdd sAdd.pc)) (afterFetch { sAdd with resume := true, script := [] }) = .next u) ∧
      exec (decode (wordAt sStuckInp 0)) (afterFetch { sStuckInp with resume := true, script := [] }) =
        .fault .inputNeverArrives ∧
      (sStuckInp.status = .ready ∧ sStuckInp.cfg.traceReturns = true ∧ sStuckInp.script = .run :: []) ∧
      { sAdd with pc := 100, script := [.run] }.pc = 100 ∧ (HostRequest.run = .run ∧ true = true) :=
  ⟨⟨rfl, rfl, rfl, by decide⟩, rfl, ⟨_, rfl⟩, rfl, ⟨rfl, rfl, rfl⟩, rfl, rfl, rfl⟩
theorem witness_StepRefusedUnlessReady :
    sAdd.script = [] ∧ { sAdd with status := .halted }.status = .halted ∧
      { sAdd with status := .awaitingInput false }.status = .awaitingInput false ∧
      { sAdd with status := .faulted .fetchOutOfRange 100 none }.status = .faulted .fetchOutOfRange 100 none :=
  ⟨rfl, rfl, rfl, rfl⟩
theorem witness_FetchPastTheEndFaults :
    StepRequested { sAdd with pc := 100 } ∧ sAdd.cfg.traceReturns = true ∧ { sAdd with pc := 100 }.pc = 100 :=
  ⟨⟨rfl, rfl⟩, rfl, rfl⟩
theorem witness_IllegalWordFaultsWhereItStands :
    StepRequested (before 99 900 0) ∧ (before 99 900 0).cfg.traceReturns = true ∧ (before 99 900 0).pc < 100 ∧
      classOf (wordAt (before 99 900 0) (before 99 900 0).pc) = some .reserved900 :=
  ⟨⟨rfl, rfl⟩, rfl, by decide, by decide⟩
theorem witness_InstrumentationFollowsTheTable :
    StepRequested sWait ∧ sWait.pc < 100 ∧ ∃ t, step sWait = .next t := ⟨⟨rfl, rfl⟩, by decide, _, rfl⟩
theorem witness_TraceEventsOfAStep :
    teaches (decode (wordAt sAdd sAdd.pc)) = true ∧ (classOf (wordAt (before 6 1 42) 6)).isSome = true ∧
      (∃ t, step sAdd = .next t) ∧ ∃ t, step (before 6 1 42) = .next t := ⟨by decide, by decide, ⟨_, rfl⟩, _, rfl⟩
theorem witness_ObservationChannelsDoNotInfluence :
    SameMachine sAdd (withThreshold .none { sAdd with events := [.output 1], freeCount := 9 }) ∧ ∃ t, step sAdd = .next t :=
  ⟨⟨rfl, rfl, rfl, rfl, rfl, rfl, rfl, rfl, rfl, rfl, rfl, rfl, rfl⟩, _, rfl⟩
theorem witness_NextFetchSeesTheStore :
    StepRequested (before 98 399 902) ∧ (before 98 399 902).cfg.traceReturns = true ∧ (before 98 399 902).pc + 1 < 100 ∧
      decode (wordAt (before 98 399 902) (before 98 399 902).pc) = .sta ((before 98 399 902).pc + 1) :=
  ⟨⟨rfl, rfl⟩, rfl, by decide, by decide⟩
theorem witness_StoreThenLoadRoundTrips : 99 < 100 ∧ ∃ t, exec (.sta 99) sAdd = .next t ∧ wordAt t 99 = wordAt t 99 :=
  ⟨by decide, _, rfl, rfl⟩
theorem witness_OnlyTheListedFatalErrors :
    (∃ t, step { sAdd with pc := 100 } = .next t ∧ t.status = .faulted .fetchOutOfRange 100 none) ∧
      ∃ t, step (before 6 903 42) = .next t ∧ t.status = .faulted (.invalidInstruction .high9xx) 6 (some 903) :=
  ⟨⟨_, rfl, rfl⟩, _, rfl, rfl⟩
theorem witness_ReadyStepCompletes : StepRequested sAdd ∧ CollaboratorsAnswer sAdd ∧ sAdd.cfg.traceReturns = true :=
  ⟨⟨rfl, rfl⟩, witness_collaborators.1, rfl⟩
theorem witness_StepKeepsImageAndConfiguration : ∃ t, step sAdd = .next t := ⟨_, rfl⟩
theorem witness_EveryStepKeepsTheInvariant : sAdd.Inv ∧ ∃ t, step sAdd = .next t :=
  ⟨⟨by decide, by decide, by decide, by decide, by decide, trivial⟩, _, rfl⟩
theorem witness_DeliveredInputResumes :
    sGive.cfg.inputMode = .suspension ∧ sGive.status = .awaitingInput true ∧ sGive.script = .deliverInput 1000 :: [] :=
  ⟨rfl, rfl, rfl⟩
theorem witness_DeliveryRefusedUnlessAwaited :
    ({ sInp with script := [.deliverInput 1] }.script = .deliverInput 1 :: [] ∧ sInp.cfg.inputMode = .blocking) ∧
      sWait.cfg.inputMode = .suspension ∧ ∀ r, sWait.status ≠ .awaitingInput r :=
  ⟨⟨rfl, rfl⟩, rfl, by intro r h; cases h⟩
theorem witness_ResetRestoresTheEngine : { sGive with script := [.reset] }.script = .reset :: [] := rfl
theorem witness_SuspensionAndDeliveryEqualBlocking :
    StepRequested sInp ∧ sInp.cfg.traceReturns = true ∧ sInp.pc < 100 ∧ decode (wordAt sInp sInp.pc) = .inp ∧
      sInp.cfg.inputMode = .blocking ∧ nextInput sInp = some (-3) := ⟨⟨rfl, rfl⟩, rfl, by decide, by decide, rfl, rfl⟩
theorem witness_ConstructAcceptsExactlyImages :
    ¬∃ t, construct [] (cfgFor .blocking) [] = .next t := by rintro ⟨t, h⟩; cases h
theorem witness_ConstructedEngineHoldsItsImage :
    nextIs (construct (999 :: List.replicate 99 0) (cfgFor .blocking) [5]) (fun _ => true) = true ∧
      (999 :: List.replicate 99 0 : List Int)[0]? = some 999 := by decide +kernel
theorem witness_EqualReadsMeanEqualMemories :
    Memory.wf [(0, 999), (99, 1)] = true ∧ ∀ a, Memory.get [(0, 999), (99, 1)] a = Memory.get [(0, 999), (99, 1)] a :=
  ⟨by decide, fun _ => rfl⟩
theorem witness_assembled :
    ∃ out used, assemble .first ["loop LDA x".toList, "BRA loop".toList, "x DAT 7".toList] = .success out used ∧
      used ≤ 3 ∧ 3 < 100 ∧ used ≤ 99 := ⟨_, _, rfl, by decide, by decide, by decide⟩
theorem witness_FirstModeReportsTheFirstError :
    assemble .all ["FOO".toList, "ADD".toList] =
      .failure [.invalidMnemonic 1 ['F', 'O', 'O'], .missingArgument 2 .add] := by decide
theorem witness_LabelArgumentsResolve :
    let lines := ["loop LDA x".toList, "BRA loop".toList, "x DAT 7".toList]
    let st := pass1 .first 0 lines .empty
    (∃ out used, assemble .first lines = .success out used) ∧
      (∃ r, st.records[0]? = some r ∧ r.mnemonic.emission = .templated 5 ∧ r.arg = some ['x']) ∧
      lookupLabel st.labels ['x'] = some ⟨['x'], 2, 2⟩ := ⟨⟨_, _, rfl⟩, ⟨_, rfl, rfl, rfl⟩, rfl⟩
theorem witness_EmittedInstructionsDecodeBack :
    let lines := ["OUT".toList, "BRA 99".toList, "x LDA x".toList]
    let st := pass1 .first 0 lines .empty
    (∃ out used, assemble .first lines = .success out used) ∧
      (∃ r, st.records[0]? = some r ∧ r.mnemonic ≠ .dat ∧ named r.mnemonic (operandOf st.labels r.arg) = some .out) ∧
      (∃ r, st.records[1]? = some r ∧ r.mnemonic ≠ .dat ∧ named r.mnemonic (operandOf st.labels r.arg) = some (.bra 99)) ∧
      ∃ r, st.records[2]? = some r ∧ r.mnemonic ≠ .dat ∧ named r.mnemonic (operandOf st.labels r.arg) = some (.lda 2) :=
  ⟨⟨_, _, rfl⟩, ⟨_, rfl, by decide, rfl⟩, ⟨_, rfl, by decide, rfl⟩, _, rfl, by decide, rfl⟩

end Sys2Proof.Tests
end

section
/-! The scalar conventions of 00_scope R10 to R12: capping, the offset encoding, and the signed view of a word. -/

namespace Sys2Proof.Machine

@[simp] theorem cap_val_cast (z : Int) : ((cap z).val : Int) = z % 1000 :=
  Int.toNat_of_nonneg (Int.emod_nonneg z (by decide))

theorem cap_eq_cap_iff {y z : Int} : cap y = cap z ↔ y % 1000 = z % 1000 := by
  rw [← cap_val_cast, ← cap_val_cast, Fin.ext_iff, Int.natCast_inj]

theorem enc_eq_ite (v : Int) : enc v = if v < 0 then 1000 + v else v := rfl

theorem dec_eq_ite (w : Word) : dec w = if 500 ≤ w.val then (w.val : Int) - 1000 else (w.val : Int) := rfl

theorem dec_bounds (w : Word) : -500 ≤ dec w ∧ dec w ≤ 499 := by
  have hw : w.val < 1000 := w.isLt
  rw [dec_eq_ite]
  split <;> omega

/-- Offset encoding adds a multiple of 1000, which capping drops. -/
@[simp] theorem cap_enc (v : Int) : cap (enc v) = cap v := by
  rw [cap_eq_cap_iff, enc_eq_ite]
  split
  · exact Int.add_emod_left 1000 v
  · rfl

/-- The signed view of a capped integer is its representative modulo 1000 in -500..499. -/
theorem dec_cap_emod (z : Int) : dec (cap z) % 1000 = z % 1000 := by
  have hcap := cap_val_cast z
  rw [dec_eq_ite]
  split <;> omega

theorem dec_cap_eq_self_iff (z : Int) : dec (cap z) = z ↔ -500 ≤ z ∧ z ≤ 499 := by
  constructor
  · intro h
    exact h ▸ dec_bounds (cap z)
  · intro hz
    have hrange := dec_bounds (cap z)
    have hmod := dec_cap_emod z
    omega

/-- Settles O6: the word's value is the remainder, and `z / 1000` is the quotient. -/
theorem capIsFloorModulo : Obligations.CapIsFloorModulo := by
  intro z
  rw [cap_val_cast]
  have hlo : 0 ≤ z % 1000 := Int.emod_nonneg z (by decide)
  have hhi : z % 1000 < 1000 := Int.emod_lt_of_pos z (by decide)
  exact ⟨rfl, hlo, Int.le_of_lt_add_one hhi, z / 1000, (Int.mul_ediv_add_emod z 1000).symm⟩

/-- Settles O7: capping forgets the offset encoding, and `dec` picks the representative in -500..499. -/
theorem signedViewRoundTrips : Obligations.SignedViewRoundTrips := by
  refine ⟨enc_eq_ite, fun w => ⟨dec_eq_ite w, dec_bounds w⟩, fun v => ⟨cap_enc v, ?_⟩, fun v => ?_⟩
  · rw [cap_enc, cap_val_cast]
  · rw [cap_enc, dec_cap_eq_self_iff]

end Sys2Proof.Machine
end

section
/-! What the decoder can answer: one case per row of 30_encoding R83, well-formed always, and the illegal rows against the
classes of 60_exceptions R231. -/

namespace Sys2Proof.Machine

/-- The fourteen rows of 30_encoding R83: the range of the word, and the instruction it is read as. -/
inductive DecodesTo (w : Word) : Instr → Prop
  | hlt : w.val = 0 → DecodesTo w .hlt
  | illegalLow0xx : 1 ≤ w.val → w.val ≤ 99 → DecodesTo w (.illegalLow0xx w)
  | add : 100 ≤ w.val → w.val ≤ 199 → DecodesTo w (.add (w.val % 100))
  | sub : 200 ≤ w.val → w.val ≤ 299 → DecodesTo w (.sub (w.val % 100))
  | sta : 300 ≤ w.val → w.val ≤ 399 → DecodesTo w (.sta (w.val % 100))
  | illegalUnassigned4xx : 400 ≤ w.val → w.val ≤ 499 → DecodesTo w (.illegalUnassigned4xx w)
  | lda : 500 ≤ w.val → w.val ≤ 599 → DecodesTo w (.lda (w.val % 100))
  | bra : 600 ≤ w.val → w.val ≤ 699 → DecodesTo w (.bra (w.val % 100))
  | brz : 700 ≤ w.val → w.val ≤ 799 → DecodesTo w (.brz (w.val % 100))
  | brp : 800 ≤ w.val → w.val ≤ 899 → DecodesTo w (.brp (w.val % 100))
  | illegalReserved900 : w.val = 900 → DecodesTo w .illegalReserved900
  | inp : w.val = 901 → DecodesTo w .inp
  | out : w.val = 902 → DecodesTo w .out
  | illegalHigh9xx : 903 ≤ w.val → w.val ≤ 999 → DecodesTo w (.illegalHigh9xx w)

/-- The decoder's chain of tests, one row at a time. -/
theorem decodesTo_decode (w : Word) : DecodesTo w (decode w) := by
  have hw : w.val < 1000 := w.isLt
  have operand : dig 1 0 w = w.val % 100 := by simp [dig]
  unfold decode
  rw [operand]
  iterate 13 refine iteInduction (fun _ => by constructor <;> omega) fun _ => ?_
  constructor <;> omega

theorem DecodesTo.wellFormed {w : Word} {i : Instr} (row : DecodesTo w i) : WellFormed i := by
  have operand : addrOk (w.val % 100) = true := decide_eq_true (Nat.mod_lt _ (by decide))
  cases row with
  | hlt | illegalReserved900 | inp | out => rfl
  | illegalLow0xx lo hi | illegalUnassigned4xx lo hi | illegalHigh9xx lo hi =>
    simp [WellFormed, Instr.wellFormed, inRange, lo, hi]
  | _ => exact operand

theorem decode_wellFormed (w : Word) : WellFormed (decode w) := (decodesTo_decode w).wellFormed

/-- No word is read as the directive DAT (30_encoding R91). -/
theorem decode_ne_dat (w : Word) (v : Int) : decode w ≠ .dat v := by
  intro h
  have row := decodesTo_decode w
  rw [h] at row
  cases row

/-- The operand address of a format A instruction (30_encoding R81). -/
def operandAddr : Instr → Option Nat
  | .add n | .sub n | .sta n | .lda n | .bra n | .brz n | .brp n => some n
  | _ => none

theorem operandAddr_lt {i : Instr} {n : Nat} (wf : WellFormed i) (h : operandAddr i = some n) : n < 100 := by
  cases i <;> cases h <;> exact of_decide_eq_true wf

/-- The class and the word of an illegal instruction (60_exceptions R231). -/
def illegalWord : Instr → Option (IllegalClass × Word)
  | .illegalLow0xx w => some (.low0xx, w)
  | .illegalUnassigned4xx w => some (.unassigned4xx, w)
  | .illegalReserved900 => some (.reserved900, 900)
  | .illegalHigh9xx w => some (.high9xx, w)
  | _ => none

theorem DecodesTo.illegalWord_eq {w : Word} {i : Instr} (row : DecodesTo w i) :
    illegalWord i = (classOf w).map fun c => (c, w) := by
  cases row with
  | illegalReserved900 h =>
    obtain rfl : w = 900 := Fin.ext h
    rfl
  | _ => simp (disch := omega) only [classOf, if_pos, if_neg]; rfl

/-- The decoder sends exactly the words of a class to the illegal instructions, each with its class and itself. -/
theorem illegalWord_decode (w : Word) : illegalWord (decode w) = (classOf w).map fun c => (c, w) :=
  (decodesTo_decode w).illegalWord_eq

theorem classOf_of_illegalWord {i : Instr} {c : IllegalClass} {w : Word} (wf : WellFormed i)
    (h : illegalWord i = some (c, w)) : classOf w = some c := by
  cases i <;> cases h
  case illegalReserved900 => rfl
  all_goals
    simp only [WellFormed, Instr.wellFormed, inRange, Bool.and_eq_true, decide_eq_true_eq] at wf
    simp (disch := omega) only [classOf, if_pos, if_neg]

end Sys2Proof.Machine
end

section
/-! What an instruction can do, said once: a relation with one rule per way `exec` answers a next state. The frame
statements and the invariant are read off its rules. -/

namespace Sys2Proof.Machine

/-- In state `s` the instruction answers the next state given. A rule per arm of the decode table, and the two fatal errors
of an instruction: the illegal words (60_exceptions R231) and the defensive operand check (60_exceptions R234). -/
inductive Executes (s : State) : Instr → State → Prop
  | add {n : Nat} : n < 100 → Executes s (.add n) (arith (.add n) (fun x m => x + m) n s)
  | sub {n : Nat} : n < 100 → Executes s (.sub n) (arith (.sub n) (fun x m => x - m) n s)
  | sta {n : Nat} : n < 100 → Executes s (.sta n)
      (finish .continued (maybeTeach (.sta n) [s.acc] s.acc.val (memWrite n s.acc (noteAccRead s))))
  | lda {n : Nat} : n < 100 → Executes s (.lda n)
      (finish .continued (maybeTeach (.lda n) [memValue n s] (cap (memValue n s).val).val
        (accWrite (memValue n s).val (noteMemRead n s))))
  | bra {n : Nat} : n < 100 → Executes s (.bra n) (branch (.bra n) [] true n s)
  | brz {n : Nat} : n < 100 → Executes s (.brz n) (branch (.brz n) [s.acc] (isZero s.acc) n (noteAccRead s))
  | brp {n : Nat} : n < 100 → Executes s (.brp n) (branch (.brp n) [s.acc] (isPositive s.acc) n (noteAccRead s))
  | inpBlocking {v : Int} : s.cfg.inputMode = .blocking → nextInput s = some v → Executes s .inp
      (finish .continued (maybeTeach .inp [] (cap (enc v)).val (accWrite (enc v) (consumeInput v s))))
  | inpSuspension : s.cfg.inputMode = .suspension → Executes s .inp
      (finish (.awaitingInput s.resume) (maybeTeach .inp [] s.acc.val s))
  | out : s.cfg.outputReturns = true → Executes s .out
      (finish .continued (maybeTeach .out [s.acc] s.acc.val (emit (.output (dec s.acc)) (noteAccRead s))))
  | hlt : s.cfg.outputReturns = true → Executes s .hlt
      (finish (.halted .explicitHalt) (maybeTeach .hlt [] s.pc (emit (.completion s.cfg.haltMessage) s)))
  | illegal {i : Instr} {c : IllegalClass} {w : Word} : illegalWord i = some (c, w) → Executes s i
      (raiseFatal (.invalidInstruction c) (s.pc - 1) (some w) s)
  | badOperand {i : Instr} {n : Nat} : operandAddr i = some n → ¬n < 100 → Executes s i
      (raiseFatal .addressOutOfRange (s.pc - 1) (some (encode i)) s)

theorem execWord_eq_exec_decode (w : Word) (s : State) : execWord w s = exec (decode w) s := by
  unfold execWord
  cases h : decode w with
  | dat v => exact absurd h (decode_ne_dat w v)
  | _ => rfl

/-- A DAT that answers a next state ran the instruction its word is read as. -/
theorem exec_dat_next {v : Int} {s t : State} (h : exec (.dat v) s = .next t) :
    exec (decode (encode (.dat v))) s = .next t := by
  rw [← execWord_eq_exec_decode]
  change execDat v s = .next t at h
  unfold execDat at h
  split at h
  · exact h
  · cases h

/-- The rule of a format A instruction: the operand check passes, or the fatal error is taken. -/
theorem executes_withAddr {i : Instr} {n : Nat} {s body t : State} (hi : operandAddr i = some n)
    (rule : n < 100 → Executes s i body) (h : Host.Outcome.next (withAddr i n s body) = (.next t : Result)) :
    Executes s i t := by
  obtain rfl : withAddr i n s body = t := Host.Outcome.next.inj h
  obtain ⟨hn, e⟩ | ⟨hn, e⟩ := withAddr_cases i n s body
  · rw [e]
    exact rule hn
  · rw [e]
    exact .badOperand hi hn

theorem executes_of_ne_dat {i : Instr} {s t : State} (hi : ∀ v, i ≠ .dat v) (h : exec i s = .next t) :
    Executes s i t := by
  cases i with
  | dat v => exact absurd rfl (hi v)
  | add n => exact executes_withAddr rfl .add h
  | sub n => exact executes_withAddr rfl .sub h
  | sta n => exact executes_withAddr rfl .sta h
  | lda n => exact executes_withAddr rfl .lda h
  | bra n => exact executes_withAddr rfl .bra h
  | brz n => exact executes_withAddr rfl .brz h
  | brp n => exact executes_withAddr rfl .brp h
  | inp =>
    change execInp s = .next t at h
    unfold execInp at h
    split at h <;> rename_i mode
    · split at h
      · cases h
        exact .inpBlocking mode ‹_›
      · cases h
    · cases h
      exact .inpSuspension mode
  | out =>
    change execOut s = .next t at h
    unfold execOut at h
    split at h <;> cases h
    exact .out ‹_›
  | hlt =>
    change execHlt s = .next t at h
    unfold execHlt at h
    split at h <;> cases h
    exact .hlt ‹_›
  | illegalLow0xx w | illegalUnassigned4xx w | illegalReserved900 | illegalHigh9xx w =>
    cases h
    exact .illegal rfl

/-- What an instruction that answers a next state can have done. -/
theorem exec_next {i : Instr} {s t : State} (h : exec i s = .next t) : Executes s (effective i) t := by
  cases i with
  | dat v => exact executes_of_ne_dat (decode_ne_dat _) (exec_dat_next h)
  | _ => exact executes_of_ne_dat (fun v => Instr.noConfusion) h

theorem executes_decode {w : Word} {s t : State} (h : exec (decode w) s = .next t) : Executes s (decode w) t :=
  executes_of_ne_dat (decode_ne_dat w) h

/-- An illegal instruction takes the fatal error of its class and its word (60_exceptions R231, R237). -/
theorem Executes.eq_raiseFatal {i : Instr} {s t : State} {c : IllegalClass} {w : Word} (h : Executes s i t)
    (hw : illegalWord i = some (c, w)) : t = raiseFatal (.invalidInstruction c) (s.pc - 1) (some w) s := by
  cases h with
  | illegal h' =>
    rw [h'] at hw
    cases hw
    rfl
  | badOperand h' => cases i <;> cases h' <;> cases hw
  | _ => cases hw

@[simp] theorem branch_acc (i : Instr) (xs : List Word) (taken : Bool) (n : Nat) (s : State) :
    (branch i xs taken n s).acc = s.acc := by
  rw [branch_eq]

@[simp] theorem branch_pc (i : Instr) (xs : List Word) (taken : Bool) (n : Nat) (s : State) :
    (branch i xs taken n s).pc = if taken then n else s.pc := by
  rw [branch_eq]

theorem Executes.keepsHostSide {i : Instr} {s t : State} (h : Executes s i t) : KeepsHostSide s t := by
  cases h with
  | bra | brz | brp =>
    rw [branch_eq]
    exact ⟨rfl, rfl, rfl, rfl⟩
  | _ => exact ⟨rfl, rfl, rfl, rfl⟩

theorem Executes.acc_eq {i : Instr} {s t : State} (h : Executes s i t) (hi : writesAcc s.cfg.inputMode i = false) :
    t.acc = s.acc := by
  cases h with
  | add | sub | lda => cases hi
  | inpBlocking mode => simp [writesAcc, mode] at hi
  | bra | brz | brp => exact branch_acc ..
  | _ => rfl

theorem takenTarget_eq_operandAddr {x : Word} {i : Instr} {a : Nat} (h : takenTarget x i = some a) :
    operandAddr i = some a := by
  cases i with
  | bra n => exact h
  | brz n | brp n => exact (Option.ite_none_right_eq_some.1 h).2
  | _ => cases h

theorem Executes.pc_eq {i : Instr} {s t : State} (h : Executes s i t) (wf : WellFormed i) :
    t.pc = (takenTarget s.acc i).getD s.pc := by
  cases h with
  | bra => rfl
  | brz =>
    by_cases hz : s.acc.val = 0 <;> simp [takenTarget, isZero, hz]
  | brp =>
    by_cases hp : s.acc.val < 500 <;> simp [takenTarget, isPositive, hp]
  | illegal h => cases i <;> cases h <;> rfl
  | badOperand h hn => exact absurd (operandAddr_lt wf h) hn
  | _ => rfl

/-- Settles O26: a rule that writes the accumulator is one of an instruction that `writesAcc` lists. -/
theorem onlyTheseWriteTheAccumulator : Obligations.OnlyTheseWriteTheAccumulator :=
  fun _ _ _ h hi => (exec_next h).acc_eq hi

end Sys2Proof.Machine
end

section
/-! What a step keeps and where it leaves the counter: the engine step through the rules of `Executes`, and one induction
over the host's requests. -/

namespace Sys2Proof.Machine

/-- An engine step that answers a next state runs the word at `pc`, or is past the end of memory (41_step_cycle R158,
60_exceptions R233). -/
theorem engineStep_cases {s t : State} (h : engineStep s = .next t) :
    (s.pc < 100 ∧ Executes (afterFetch s) (decode (wordAt s s.pc)) t) ∨ (¬s.pc < 100 ∧ t = fetchPastEnd s) := by
  obtain ⟨-, -, ⟨hp, e⟩ | past⟩ := engineStep_next h
  · exact .inl ⟨hp, executes_decode e⟩
  · exact .inr past

/-- A property that does not look at what is requested and handed back, and that an engine step, a delivery and a reset
keep, is kept by a step whatever request it serves (41_step_cycle R172). -/
theorem step_keeps {P : State → Prop}
    (request : ∀ s r q reply, P s → P { s with resume := r, script := q, reply := reply })
    (engine : ∀ s t, P s → engineStep s = .next t → P t)
    (deliver : ∀ v s t, P s → deliverInput v s = .next t → P t)
    (reset : ∀ s, P s → P (hostReset s))
    {s t : State} (hs : P s) (h : step s = .next t) : P t := by
  obtain ⟨-, h⟩ | ⟨r, rest, -, h⟩ | ⟨rest, -, h⟩ | ⟨v, rest, -, h⟩ | ⟨rest, -, rfl⟩ := step_next h
  · exact engine _ _ hs h
  · exact engine _ _ (request _ _ _ _ hs) h
  · obtain ⟨u, hu, ⟨-, rfl⟩ | ⟨-, rfl⟩⟩ := runTurn_next h
    · exact request u _ _ _ (engine _ _ (request _ _ _ _ hs) hu)
    · exact engine _ _ (request _ _ _ _ hs) hu
  · exact deliver _ _ _ (request _ _ _ _ hs) h
  · exact reset _ (request _ _ _ _ hs)

theorem step_of_requested {s : State} (h : StepRequested s) : step s = engineStep s := by
  unfold step serve
  rw [h.script]

theorem engineStep_keepsHostSide {s t : State} (h : engineStep s = .next t) : KeepsHostSide s t := by
  obtain ⟨-, e⟩ | ⟨-, rfl⟩ := engineStep_cases h
  · obtain ⟨image, cfg, resume, script⟩ := e.keepsHostSide
    exact ⟨image, cfg, resume, script⟩
  · exact ⟨rfl, rfl, rfl, rfl⟩

/-- The state holds the image and the configuration given. -/
def HoldsImageAndConfig (image : Memory) (cfg : EngineConfig) (s : State) : Prop := s.image = image ∧ s.cfg = cfg

/-- Settles O42: instructions keep the host's side, a delivery writes the accumulator, and a reset copies the image. -/
theorem stepKeepsImageAndConfiguration : Obligations.StepKeepsImageAndConfiguration := by
  intro s t h
  refine step_keeps (P := HoldsImageAndConfig s.image s.cfg) (fun _ _ _ _ hu => hu) ?engine ?deliver (fun _ hu => hu)
    ⟨rfl, rfl⟩ h
  case engine =>
    rintro u v ⟨image, cfg⟩ e
    have kept := engineStep_keepsHostSide e
    exact ⟨kept.image.trans image, kept.cfg.trans cfg⟩
  case deliver =>
    intro v u w hu e
    obtain ⟨-, r, -, rfl⟩ := deliverInput_next e
    exact hu

/-- Settles O28: a taken branch leaves its target, everything else what the increment left, and an illegal word faults. -/
theorem stepLeavesThePc : Obligations.StepLeavesThePc := by
  intro s t requested hp h
  rw [step_of_requested requested] at h
  obtain ⟨-, e⟩ | ⟨past, -⟩ := engineStep_cases h
  · refine ⟨e.pc_eq (decode_wellFormed _), fun a ha => ?_, fun c hc => ?_⟩
    · exact operandAddr_lt (decode_wellFormed _) (takenTarget_eq_operandAddr ha)
    · have illegal : illegalWord (decode (wordAt s s.pc)) = some (c, wordAt s s.pc) := by
        rw [illegalWord_decode, hc]
        rfl
      rw [e.eq_raiseFatal illegal]
      exact ⟨rfl, rfl⟩
  · exact absurd hp past

/-- What holds between the increment and the end of a step: the invariant but for the status latch, with the counter past
the fetched word (41_step_cycle R153). -/
structure MidStep (s : State) : Prop where
  pos : 1 ≤ s.pc
  pc : s.pc ≤ 100
  mem : s.mem.wf = true
  image : s.image.wf = true
  reads : s.instr.memReads.wf = true
  writes : s.instr.memWrites.wf = true

theorem State.Inv.afterFetch {s : State} (h : s.Inv) (hp : s.pc < 100) : MidStep (afterFetch s) := by
  have reads : AddrSet.wf (if s.cfg.fetchInReadSet then [s.pc] else []) = true := by
    split
    · exact AddrSet.wf_insert (m := []) hp rfl
    · rfl
  exact ⟨Nat.succ_pos s.pc, hp, h.mem, h.image, reads, rfl⟩

theorem State.Inv.fetchPastEnd {s : State} (h : s.Inv) (hp : ¬s.pc < 100) : (fetchPastEnd s).Inv := by
  have hpc : s.pc = 100 := Nat.le_antisymm h.pc (Nat.le_of_not_lt hp)
  exact ⟨h.pc, h.mem, h.image, rfl, rfl, rfl, rfl, hpc⟩

theorem arith_inv {i : Instr} {op : Int → Int → Int} {n : Nat} {s : State} (h : MidStep s) (hn : n < 100) :
    (arith i op n s).Inv :=
  ⟨h.pc, h.mem, h.image, AddrSet.wf_insert hn h.reads, h.writes, trivial⟩

theorem branch_inv {i : Instr} {xs : List Word} {taken : Bool} {n : Nat} {s : State} (h : MidStep s) (hn : n < 100) :
    (branch i xs taken n s).Inv := by
  have pc : (if taken then n else s.pc) ≤ 100 := by
    split
    · exact Nat.le_of_lt hn
    · exact h.pc
  rw [branch_eq]
  exact ⟨pc, h.mem, h.image, h.reads, h.writes, trivial⟩

/-- An instruction that has an encoding ends its step in a state that meets the invariant. -/
theorem Executes.inv {i : Instr} {s t : State} (e : Executes s i t) (wf : WellFormed i) (h : MidStep s) : t.Inv := by
  have noted : MidStep (noteAccRead s) := ⟨h.pos, h.pc, h.mem, h.image, h.reads, h.writes⟩
  cases e with
  | add hn | sub hn => exact arith_inv h hn
  | sta hn => exact ⟨h.pc, Memory.wf_set _ hn h.mem, h.image, h.reads, AddrSet.wf_insert hn h.writes, trivial⟩
  | lda hn => exact ⟨h.pc, h.mem, h.image, AddrSet.wf_insert hn h.reads, h.writes, trivial⟩
  | bra hn => exact branch_inv h hn
  | brz hn | brp hn => exact branch_inv noted hn
  | inpBlocking | out => exact ⟨h.pc, h.mem, h.image, h.reads, h.writes, trivial⟩
  | inpSuspension mode => exact ⟨h.pc, h.mem, h.image, h.reads, h.writes, mode, h.pos⟩
  | hlt => exact ⟨h.pc, h.mem, h.image, h.reads, h.writes, h.pos⟩
  | illegal hw =>
    exact ⟨h.pc, h.mem, h.image, h.reads, h.writes, classOf_of_illegalWord wf hw, Nat.sub_add_cancel h.pos⟩
  | badOperand hi hn => exact absurd (operandAddr_lt wf hi) hn

/-- Settles O45: the fetch leaves the invariant but for the status latch, and every rule of a decoded word restores it. -/
theorem everyStepKeepsTheInvariant : Obligations.EveryStepKeepsTheInvariant := by
  intro s t hs h
  refine step_keeps (P := State.Inv) ?request ?engine ?deliver ?reset hs h
  case request =>
    intro u _ _ _ hu
    exact ⟨hu.pc, hu.mem, hu.image, hu.reads, hu.writes, hu.status⟩
  case engine =>
    intro u v hu e
    obtain ⟨hp, run⟩ | ⟨hp, rfl⟩ := engineStep_cases e
    · exact run.inv (decode_wellFormed _) (hu.afterFetch hp)
    · exact hu.fetchPastEnd hp
  case deliver =>
    intro v u w hu e
    obtain ⟨-, r, -, rfl⟩ := deliverInput_next e
    exact ⟨hu.pc, hu.mem, hu.image, hu.reads, hu.writes, trivial⟩
  case reset =>
    intro u hu
    exact ⟨Nat.zero_le 100, hu.image, hu.image, rfl, rfl, trivial⟩

end Sys2Proof.Machine
end

section
/-! Memory as its 100 words: what addresses below a canonical list read as, equality by reads, and the memory of an image;
then the construction of an engine and the state after reset (10_state R37, R39, R50, R51). -/

namespace Sys2Proof.Machine

/-- Below its first address a canonical memory reads as unlisted. -/
theorem Memory.get_of_lt {lo a : Nat} {m : Memory} (h : Memory.wfFrom lo m = true) (ha : a < lo) : m.get a = 0 := by
  induction m generalizing lo with
  | nil => rfl
  | cons c m ih =>
    obtain ⟨⟨hlo, -, -⟩, rest⟩ := (Memory.wfFrom_cons ..).1 h
    rw [Memory.get_cons, if_neg (by omega), ih rest (by omega)]

@[simp] theorem Memory.get_cons_same (c : Cell) (m : Memory) : Memory.get (c :: m) c.1 = c.2 := if_pos rfl

/-- A canonical memory that reads as unlisted everywhere has no cell. -/
theorem Memory.eq_nil_of_get {lo : Nat} {m : Memory} (hm : Memory.wfFrom lo m = true) (h : ∀ a, m.get a = 0) :
    m = [] := by
  cases m with
  | nil => rfl
  | cons c m =>
    obtain ⟨⟨-, -, listed⟩, -⟩ := (Memory.wfFrom_cons ..).1 hm
    exact absurd ((Memory.get_cons_same c m).symm.trans (h c.1)) listed

/-- Of two canonical memories that read the same, neither begins at a lower address than the other. -/
theorem Memory.first_le_of_get_eq {lo : Nat} {c d : Cell} {m m' : Memory} (hc : Memory.wfFrom lo (c :: m) = true)
    (hd : Memory.wfFrom lo (d :: m') = true) (h : ∀ a, Memory.get (c :: m) a = Memory.get (d :: m') a) : d.1 ≤ c.1 := by
  obtain ⟨⟨-, -, listed⟩, -⟩ := (Memory.wfFrom_cons ..).1 hc
  obtain ⟨⟨-, bound, listed'⟩, rest⟩ := (Memory.wfFrom_cons ..).1 hd
  by_contra below
  have fromFirst : Memory.wfFrom d.1 (d :: m') = true :=
    (Memory.wfFrom_cons ..).2 ⟨⟨Nat.le_refl d.1, bound, listed'⟩, rest⟩
  have read := h c.1
  rw [Memory.get_cons_same, Memory.get_of_lt fromFirst (Nat.lt_of_not_le below)] at read
  exact listed read

/-- Canonical memories that read the same are the same list. -/
theorem Memory.eq_of_get_eq {lo : Nat} {m m' : Memory} (hm : Memory.wfFrom lo m = true)
    (hm' : Memory.wfFrom lo m' = true) (h : ∀ a, m.get a = m'.get a) : m = m' := by
  induction m generalizing lo m' with
  | nil => exact (Memory.eq_nil_of_get hm' fun a => (h a).symm).symm
  | cons c m ih =>
    cases m' with
    | nil => exact Memory.eq_nil_of_get hm h
    | cons d m' =>
      have addr : c.1 = d.1 :=
        Nat.le_antisymm (Memory.first_le_of_get_eq hm' hm fun a => (h a).symm) (Memory.first_le_of_get_eq hm hm' h)
      have word : c.2 = d.2 := by
        have read := h c.1
        rwa [Memory.get_cons_same, addr, Memory.get_cons_same] at read
      obtain rfl : c = d := Prod.ext addr word
      obtain ⟨-, rest⟩ := (Memory.wfFrom_cons ..).1 hm
      obtain ⟨-, rest'⟩ := (Memory.wfFrom_cons ..).1 hm'
      refine congrArg (c :: ·) (ih rest rest' fun a => ?_)
      by_cases ha : a ≤ c.1
      · rw [Memory.get_of_lt rest (Nat.lt_succ_of_le ha), Memory.get_of_lt rest' (Nat.lt_succ_of_le ha)]
      · have read := h a
        rwa [Memory.get_cons, Memory.get_cons, if_neg (by omega), if_neg (by omega)] at read

/-- Settles O52: by induction on the first list, for canonical lists that start anywhere. -/
theorem equalReadsMeanEqualMemories : Obligations.EqualReadsMeanEqualMemories :=
  fun _ _ => Memory.eq_of_get_eq

/-- Word `i` of an image is read back `i` addresses after the image's first (20_memory R74). -/
theorem Memory.get_ofWords {a i : Nat} {ws : List Word} {w : Word} (h : a + ws.length ≤ 100) (hw : ws[i]? = some w) :
    (Memory.ofWords a ws).get (a + i) = w := by
  induction ws generalizing a i with
  | nil => cases hw
  | cons x ws ih =>
    have fits : a + 1 + ws.length ≤ 100 := by
      rw [List.length_cons] at h
      omega
    have later := Memory.wfFrom_ofWords (a + 1) ws fits
    unfold Memory.ofWords
    cases i with
    | zero =>
      obtain rfl : x = w := Option.some.inj hw
      split <;> rename_i hx
      · rw [hx]
        exact Memory.get_of_lt later (Nat.lt_succ_self a)
      · exact Memory.get_cons_same (a, x) _
    | succ i =>
      have tail := ih fits hw
      rw [Nat.add_right_comm] at tail
      split
      · exact tail
      · rw [Memory.get_cons, if_neg (by simp only []; omega)]
        exact tail

/-- An image an engine is constructed from: exactly 100 integers in 0..999 (10_state R39). -/
def IsImage (image : List Int) : Prop := image.length = 100 ∧ ∀ z ∈ image, 0 ≤ z ∧ z ≤ 999

/-- The memory that holds an image word for word. -/
def imageMemory (image : List Int) : Memory := Memory.ofWords 0 (image.map cap)

/-- The first state of an engine (10_state R51). -/
def newEngine (image : List Int) (cfg : EngineConfig) (inputs : List Int) : State :=
  { State.reset with mem := imageMemory image, image := imageMemory image, cfg := cfg, inputs := inputs }

theorem wordsOf_of_inRange {image : List Int} (h : ∀ z ∈ image, 0 ≤ z ∧ z ≤ 999) :
    wordsOf image = some (image.map cap) := by
  induction image with
  | nil => rfl
  | cons z image ih =>
    obtain ⟨⟨lo, hi⟩, rest⟩ := List.forall_mem_cons.1 h
    rw [wordsOf, if_pos ⟨lo, Int.lt_add_one_of_le hi⟩, ih rest]
    rfl

theorem inRange_of_wordsOf {image : List Int} {ws : List Word} (h : wordsOf image = some ws) :
    ∀ z ∈ image, 0 ≤ z ∧ z ≤ 999 := by
  induction image generalizing ws with
  | nil => exact List.forall_mem_nil _
  | cons z image ih =>
    unfold wordsOf at h
    split at h <;> rename_i hz
    · obtain ⟨rest, hrest, -⟩ := Option.map_eq_some_iff.1 h
      exact List.forall_mem_cons.2 ⟨⟨hz.1, Int.le_of_lt_add_one hz.2⟩, ih hrest⟩
    · cases h

theorem construct_of_isImage {image : List Int} (h : IsImage image) (cfg : EngineConfig) (inputs : List Int) :
    construct image cfg inputs = .next (newEngine image cfg inputs) := by
  have length : (image.map cap).length = Config.memSize := by rw [List.length_map, h.1]
  unfold construct
  rw [wordsOf_of_inRange h.2]
  exact if_pos length

theorem construct_of_not_isImage {image : List Int} (h : ¬IsImage image) (cfg : EngineConfig) (inputs : List Int) :
    construct image cfg inputs = .refused .badImage := by
  unfold construct
  split
  · rfl
  · rename_i ws hws
    have values := inRange_of_wordsOf hws
    obtain rfl : image.map cap = ws := Option.some.inj ((wordsOf_of_inRange values).symm.trans hws)
    refine if_neg fun length => h ⟨?_, values⟩
    rwa [List.length_map] at length

/-- What a construction that answers an engine was given, and what it answers. -/
theorem construct_next {image : List Int} {cfg : EngineConfig} {inputs : List Int} {t : State}
    (h : construct image cfg inputs = .next t) : IsImage image ∧ t = newEngine image cfg inputs := by
  by_cases valid : IsImage image
  · rw [construct_of_isImage valid] at h
    exact ⟨valid, (Host.Outcome.next.inj h).symm⟩
  · rw [construct_of_not_isImage valid] at h
    cases h

/-- Settles O50: a valid image constructs `newEngine`, and any other is refused as `badImage`. -/
theorem constructAcceptsExactlyImages : Obligations.ConstructAcceptsExactlyImages := by
  intro image cfg inputs
  have accepts (valid : IsImage image) : ∃ t, construct image cfg inputs = .next t :=
    ⟨_, construct_of_isImage valid cfg inputs⟩
  exact ⟨⟨fun ⟨t, h⟩ => (construct_next h).1, accepts⟩,
    fun noEngine => construct_of_not_isImage (mt accepts noEngine) cfg inputs⟩

theorem imageMemory_wf {image : List Int} (h : IsImage image) : (imageMemory image).wf = true :=
  Memory.wfFrom_ofWords 0 _ (by rw [List.length_map, h.1])

theorem imageMemory_get {image : List Int} (h : IsImage image) {a : Nat} {z : Int} (hz : image[a]? = some z) :
    (((imageMemory image).get a).val : Int) = z := by
  obtain ⟨lo, hi⟩ := h.2 z (List.mem_of_getElem? hz)
  have fits : 0 + (image.map cap).length ≤ 100 := by rw [List.length_map, h.1]
  have word : (image.map cap)[a]? = some (cap z) := by rw [List.getElem?_map, hz]; rfl
  have read := Memory.get_ofWords fits word
  rw [Nat.zero_add] at read
  rw [imageMemory, read, cap_val_cast]
  omega

theorem newEngine_inv {image : List Int} (h : IsImage image) (cfg : EngineConfig) (inputs : List Int) :
    (newEngine image cfg inputs).Inv :=
  ⟨Nat.zero_le 100, imageMemory_wf h, imageMemory_wf h, rfl, rfl, trivial⟩

/-- Settles O51: a constructed engine is `newEngine` of its image. -/
theorem constructedEngineHoldsItsImage : Obligations.ConstructedEngineHoldsItsImage := by
  intro image cfg inputs t h
  obtain ⟨valid, rfl⟩ := construct_next h
  refine ⟨fun a z hz => ?_, rfl, rfl, rfl, rfl, rfl, rfl, rfl, newEngine_inv valid cfg inputs⟩
  exact ⟨imageMemory_get valid hz, imageMemory_get valid hz⟩

/-- Settles O43: the fields of `State.reset`, whose memory and image are the same list. -/
theorem stateAfterReset : Obligations.StateAfterReset := ⟨rfl, rfl, fun _ => rfl, rfl, rfl⟩

/-- Settles O44: every list of the reset state is empty, its counter is 0 and its status Ready. -/
theorem invariantAtReset : Obligations.InvariantAtReset :=
  ⟨Nat.zero_le 100, Memory.wf_reset, rfl, rfl, rfl, trivial⟩

end Sys2Proof.Machine
end

section
/-! The frames of an instruction: which words it leaves, and that past events stay (20_memory R61, 10_state R38,
41_step_cycle R172). -/

namespace Sys2Proof.Machine

@[simp] theorem branch_mem (i : Instr) (xs : List Word) (taken : Bool) (n : Nat) (s : State) :
    (branch i xs taken n s).mem = s.mem := by
  rw [branch_eq]

@[simp] theorem branch_events (i : Instr) (xs : List Word) (taken : Bool) (n : Nat) (s : State) :
    (branch i xs taken n s).events = s.events ++ [.trace .low (.teaching i xs (if taken then n else s.pc))] := by
  rw [branch_eq]

/-- An instruction whose effect is an STA is listed with the STA's operand address. -/
theorem storeAddr_of_effective {i : Instr} {n : Nat} (h : effective i = .sta n) : storeAddr i = some n := by
  cases i with
  | sta m =>
    cases h
    rfl
  | dat v =>
    change decode (encode (.dat v)) = .sta n at h
    simp only [storeAddr, h]
  | _ => cases h

/-- Only the rule of STA writes memory, at its operand address. -/
theorem Executes.wordAt_eq {i : Instr} {s t : State} {a : Nat} (h : Executes s i t) (hi : i ≠ .sta a) :
    wordAt t a = wordAt s a := by
  cases h with
  | @sta n =>
    have elsewhere : a ≠ n := fun same => hi (congrArg Instr.sta same.symm)
    exact Memory.get_set_other s.mem s.acc elsewhere
  | bra | brz | brp => exact congrArg (Memory.get · a) (branch_mem ..)
  | _ => rfl

/-- Settles O25: an instruction not listed as storing to the address does not have the effect of an STA to it. -/
theorem onlyStaWritesMemory : Obligations.OnlyStaWritesMemory :=
  fun _ _ _ h _ ha => (exec_next h).wordAt_eq fun sta => ha (storeAddr_of_effective sta)

/-- An unspecified trace adds at the end, or not at all. -/
theorem maybeTeach_events_append {past tail : List Event} {i : Instr} {xs : List Word} {r : Nat} {s : State}
    (h : s.events = past ++ tail) : ∃ tail', (maybeTeach i xs r s).events = past ++ tail' := by
  obtain same | more := maybeTeach_events_cases i xs r s
  · exact ⟨tail, same.trans h⟩
  · rw [more, h, List.append_assoc]
    exact ⟨_, rfl⟩

/-- Every rule leaves the events or adds at the end. -/
theorem Executes.events_append {i : Instr} {s t : State} (h : Executes s i t) :
    ∃ tail, t.events = s.events ++ tail := by
  have unchanged : s.events = s.events ++ [] := (List.append_nil s.events).symm
  cases h with
  | add | sub => exact ⟨_, rfl⟩
  | bra | brz | brp => exact ⟨_, branch_events ..⟩
  | sta | lda | inpSuspension => exact maybeTeach_events_append unchanged
  | inpBlocking | out | hlt => exact maybeTeach_events_append rfl
  | illegal | badOperand => exact ⟨[], unchanged⟩

/-- Settles O27: each rule of `Executes` keeps the host's side and the events before it. -/
theorem instructionsKeepTheHostSide : Obligations.InstructionsKeepTheHostSide :=
  fun _ _ _ h => ⟨(exec_next h).keepsHostSide, (exec_next h).events_append⟩

end Sys2Proof.Machine
end

section
/-! A requested step as the execution of the word at `pc`, and the store to the word fetched next (20_memory R72,
41_step_cycle R158). -/

namespace Sys2Proof.Machine

/-- With a trace consumer that returns, a requested step below the end of memory executes the word at `pc`. -/
theorem step_eq_exec {s : State} (requested : StepRequested s) (returns : s.cfg.traceReturns = true)
    (hp : s.pc < 100) : step s = exec (decode (wordAt s s.pc)) (afterFetch s) := by
  rw [step_of_requested requested]
  unfold engineStep
  rw [requested.ready]
  exact (if_pos returns).trans (if_pos hp)

theorem exec_sta {n : Nat} (hn : n < 100) (s : State) :
    exec (.sta n) s =
      .next (finish .continued (maybeTeach (.sta n) [s.acc] s.acc.val (memWrite n s.acc (noteAccRead s)))) :=
  congrArg Host.Outcome.next (withAddr_valid (.sta n) s _ hn)

/-- An STA ends in Ready with the counter unmoved, and its word reads as the accumulator (43_load_store R190). -/
theorem exec_sta_leaves {n : Nat} (hn : n < 100) {s t : State} (h : exec (.sta n) s = .next t) :
    t.status = .ready ∧ t.pc = s.pc ∧ wordAt t n = s.acc := by
  rw [exec_sta hn] at h
  cases h
  exact ⟨rfl, rfl, Memory.get_set_same s.mem n s.acc⟩

/-- Settles O38: the step that stores leaves a step requested, with the old accumulator where that step fetches. -/
theorem nextFetchSeesTheStore : Obligations.NextFetchSeesTheStore := by
  intro s requested returns hp hsta
  obtain ⟨t, run⟩ : ∃ t, exec (.sta (s.pc + 1)) (afterFetch s) = .next t := ⟨_, exec_sta hp _⟩
  have kept := (exec_next run).keepsHostSide
  obtain ⟨ready, pc, word⟩ : t.status = .ready ∧ t.pc = s.pc + 1 ∧ wordAt t (s.pc + 1) = s.acc :=
    exec_sta_leaves hp run
  rw [← pc] at word
  have requested' : StepRequested t := ⟨ready, kept.script.trans requested.script⟩
  have returns' : t.cfg.traceReturns = true := (congrArg EngineConfig.traceReturns kept.cfg).trans returns
  refine ⟨t, ?stored, pc, word, ?fetched⟩
  case stored => rw [step_eq_exec requested returns (Nat.lt_of_succ_lt hp), hsta, run]
  case fetched => rw [step_eq_exec requested' returns' (pc ▸ hp), word]

end Sys2Proof.Machine
end

section
/-! The assembler's passes: what a scanned line can do, an induction over pass 1, and that a successful assembly's image has
100 words, which is what an engine is constructed from (40_assembler R105 to R131, 20_memory R74). -/

namespace Sys2Proof.Machine

/-- What a line that pass 1 accepts can be: blank, or a record with its label, of a program that is not full. -/
theorem scanLine_ok {ln : Nat} {line : Line} {st t : AsmState} (h : scanLine ln line st = .ok t) :
    (strip (stripComment line) = [] ∧ t = st) ∨
    (∃ label m arg op, shape (tokens (strip (stripComment line))) = some (label, m, arg) ∧ mnemonicOf m = some op ∧
      label.bind (lookupLabel st.labels) = none ∧ st.records.length < 100 ∧
      t = { st with labels := bindLabel label ln st, records := st.records ++ [⟨op, arg, line, ln⟩] }) := by
  simp only [scanLine] at h
  split at h <;> rename_i blank
  · exact .inl ⟨blank, (Except.ok.inj h).symm⟩
  · split at h
    · cases h
    · split at h
      · cases h
      · split at h
        · cases h
        · split at h <;> rename_i room
          · cases h
          · exact .inr ⟨_, _, _, _, ‹_›, ‹_›, ‹_›, Nat.lt_of_not_le room, (Except.ok.inj h).symm⟩

/-- A property that an accepted line and a noted error keep holds after pass 1. -/
theorem pass1_keeps {P : AsmState → Prop} (scan : ∀ ln line st t, P st → scanLine ln line st = .ok t → P t)
    (note : ∀ e st, P st → P (noteError e st)) {mode : ErrorMode} {ln : Nat} {lines : List Line} {st : AsmState}
    (h : P st) : P (pass1 mode ln lines st) := by
  induction lines generalizing ln st with
  | nil => exact h
  | cons line lines ih =>
    unfold pass1
    split
    · exact ih (scan _ _ _ _ h ‹_›)
    · cases mode with
      | first => exact note _ _ h
      | all => exact ih (note _ _ h)

theorem pass1_records_length_le (mode : ErrorMode) (lines : List Line) :
    (pass1 mode 0 lines .empty).records.length ≤ 100 := by
  refine pass1_keeps (P := fun st => st.records.length ≤ 100) ?scan (fun _ _ h => h) (Nat.zero_le 100)
  intro ln line st t h scanned
  obtain ⟨-, rfl⟩ | ⟨_, _, _, _, -, -, -, room, rfl⟩ := scanLine_ok scanned
  · exact h
  · rw [List.length_append]
    exact room

theorem pass1_out (mode : ErrorMode) (lines : List Line) : (pass1 mode 0 lines .empty).out = [] := by
  refine pass1_keeps (P := fun st => st.out = []) ?scan (fun _ _ h => h) rfl
  intro ln line st t h scanned
  obtain ⟨-, rfl⟩ | ⟨_, _, _, _, -, -, -, -, rfl⟩ := scanLine_ok scanned <;> exact h

/-- Pass 2 emits at most one word for each record. -/
theorem pass2_out_length_le (mode : ErrorMode) (records : List Record) (st : AsmState) :
    (pass2 mode records st).out.length ≤ st.out.length + records.length := by
  induction records generalizing st with
  | nil => exact Nat.le_refl _
  | cons r records ih =>
    unfold pass2
    split
    · refine (ih _).trans (Nat.le_of_eq ?_)
      simp only [List.length_append, List.length_cons, List.length_nil]
      omega
    · cases mode with
      | first => exact Nat.le_add_right ..
      | all => exact (ih _).trans (Nat.add_le_add_left (Nat.le_succ _) _)

/-- The state in which an assembly that runs both passes ends (40_assembler R135). -/
def assembled (mode : ErrorMode) (lines : List Line) : AsmState :=
  pass2 mode (pass1 mode 0 lines .empty).records (pass1 mode 0 lines .empty)

/-- What an assembly that succeeds answers. -/
theorem assemble_success {mode : ErrorMode} {lines : List Line} {out : List Word} {used : Nat}
    (h : assemble mode lines = .success out used) :
    (assembled mode lines).errors = [] ∧ out = padImage (assembled mode lines).out ∧
      used = (assembled mode lines).out.length := by
  simp only [assemble] at h
  split at h
  · cases h
  · unfold asmAnswer at h
    split at h <;> rename_i noError
    · cases h
      exact ⟨noError, rfl, rfl⟩
    · cases h

theorem assembled_out_length_le (mode : ErrorMode) (lines : List Line) : (assembled mode lines).out.length ≤ 100 := by
  calc (assembled mode lines).out.length
      ≤ (pass1 mode 0 lines .empty).out.length + (pass1 mode 0 lines .empty).records.length := pass2_out_length_le ..
    _ = (pass1 mode 0 lines .empty).records.length := by rw [pass1_out, List.length_nil, Nat.zero_add]
    _ ≤ 100 := pass1_records_length_le mode lines

theorem padImage_length {out : List Word} (h : out.length ≤ 100) : (padImage out).length = 100 := by
  rw [padImage, List.length_append, List.length_replicate]
  exact Nat.add_sub_cancel' h

theorem assemble_success_length {mode : ErrorMode} {lines : List Line} {out : List Word} {used : Nat}
    (h : assemble mode lines = .success out used) : out.length = 100 := by
  obtain ⟨-, rfl, -⟩ := assemble_success h
  exact padImage_length (assembled_out_length_le mode lines)

/-- 100 words, as integers, are an image. -/
theorem isImage_of_words {ws : List Word} (h : ws.length = 100) : IsImage (ws.map fun w => (w.val : Int)) := by
  refine ⟨(List.length_map _).trans h, fun z hz => ?_⟩
  obtain ⟨w, -, rfl⟩ := List.mem_map.1 hz
  omega

/-- The memory that holds 100 words reads word `a` at address `a`. -/
theorem imageMemory_get_words {ws : List Word} (h : ws.length = 100) {a : Nat} {w : Word} (hw : ws[a]? = some w) :
    (imageMemory (ws.map fun w => (w.val : Int))).get a = w := by
  have value : (ws.map fun w => (w.val : Int))[a]? = some (w.val : Int) := by rw [List.getElem?_map, hw]; rfl
  exact Fin.ext (Int.ofNat_inj.1 (imageMemory_get (isImage_of_words h) value))

/-- Settles O58: a successful assembly's 100 words are an image, and the engine is `newEngine` of it. -/
theorem assembledImageConstructs : Obligations.AssembledImageConstructs := by
  intro mode lines out used cfg inputs h
  have length := assemble_success_length h
  exact ⟨_, construct_of_isImage (isImage_of_words length) cfg inputs,
    fun a w hw => ⟨imageMemory_get_words length hw, imageMemory_get_words length hw⟩⟩

end Sys2Proof.Machine
end

section
/-! Decoding and encoding as inverses: a word meets the conditions of one row of 30_encoding R83 only, and the word of an
instruction meets those of the instruction's own row (30_encoding R81, R85). -/

namespace Sys2Proof.Machine

/-- The decoder answers the row whose conditions the word meets, so no word meets those of two rows. -/
theorem DecodesTo.decode_eq {w : Word} {i : Instr} (row : DecodesTo w i) : decode w = i := by
  have operand : dig 1 0 w = w.val % 100 := by simp [dig]
  unfold decode
  rw [operand]
  cases row <;> simp (disch := omega) only [if_pos, if_neg]

/-- A word in the range of an instruction's row, with the instruction's operand or the illegal word it carries, meets the
row's conditions. -/
theorem decodesTo_of_rowRange {w : Word} {i : Instr} (notDat : ∀ v, i ≠ .dat v)
    (lo : (Laws.EncodedRange.rowRange i).1 ≤ w.val) (hi : w.val ≤ (Laws.EncodedRange.rowRange i).2)
    (operand : ∀ n, operandAddr i = some n → w.val % 100 = n)
    (illegal : ∀ c x, illegalWord i = some (c, x) → w = x) : DecodesTo w i := by
  cases i with
  | dat v => exact absurd rfl (notDat v)
  | hlt | illegalReserved900 | inp | out =>
    constructor
    exact Nat.le_antisymm hi lo
  | illegalLow0xx | illegalUnassigned4xx | illegalHigh9xx =>
    obtain rfl := illegal _ _ rfl
    constructor
    exacts [lo, hi]
  | _ =>
    obtain rfl := operand _ rfl
    constructor
    exacts [lo, hi]

theorem encodedRange (i : Instr) : Laws.EncodedRange.Statement i := by
  cases i with
  | hlt => exact Laws.EncodedRange.hlt
  | illegalLow0xx w => exact Laws.EncodedRange.illegalLow0xx w
  | add n => exact Laws.EncodedRange.add n
  | sub n => exact Laws.EncodedRange.sub n
  | sta n => exact Laws.EncodedRange.sta n
  | illegalUnassigned4xx w => exact Laws.EncodedRange.illegalUnassigned4xx w
  | lda n => exact Laws.EncodedRange.lda n
  | bra n => exact Laws.EncodedRange.bra n
  | brz n => exact Laws.EncodedRange.brz n
  | brp n => exact Laws.EncodedRange.brp n
  | illegalReserved900 => exact Laws.EncodedRange.illegalReserved900
  | inp => exact Laws.EncodedRange.inp
  | out => exact Laws.EncodedRange.out
  | illegalHigh9xx w => exact Laws.EncodedRange.illegalHigh9xx w
  | dat v => exact Laws.EncodedRange.dat v

@[simp] theorem cap_val_self (w : Word) : cap (w.val : Int) = w := by
  have value := cap_val_cast (w.val : Int)
  apply Fin.ext
  omega

/-- The operand address of a format A instruction is its word modulo 100 (30_encoding R82). -/
theorem encode_val_mod {i : Instr} {n : Nat} (wf : WellFormed i) (h : operandAddr i = some n) :
    (encode i).val % 100 = n := by
  have bound : n < 100 := operandAddr_lt wf h
  obtain ⟨value, -, -⟩ := encodedRange i wf
  obtain ⟨op, digits⟩ : ∃ op : Int, encodeValue i = 100 * op + n := by
    cases i <;> cases h <;> exact ⟨_, rfl⟩
  omega

theorem encode_eq_of_illegalWord {i : Instr} {c : IllegalClass} {w : Word} (h : illegalWord i = some (c, w)) :
    encode i = w := by
  cases i <;> cases h
  case illegalReserved900 => rfl
  all_goals exact cap_val_self _

/-- The word of a well-formed instruction meets the conditions of the instruction's own row. -/
theorem decodesTo_encode {i : Instr} (wf : WellFormed i) (notDat : ∀ v, i ≠ .dat v) : DecodesTo (encode i) i := by
  obtain ⟨-, lo, hi⟩ := encodedRange i wf
  exact decodesTo_of_rowRange notDat lo hi (fun _ h => encode_val_mod wf h) fun _ _ h => encode_eq_of_illegalWord h

/-- Settles O2: the instruction's word meets the conditions of its row, and the decoder answers that row. -/
theorem encodedInstructionDecodesBack : Obligations.EncodedInstructionDecodesBack :=
  fun _ wf notDat => (decodesTo_encode wf notDat).decode_eq

/-- A row's instruction is encoded as the word that was read as it. -/
theorem DecodesTo.encodeValue_eq {w : Word} {i : Instr} (row : DecodesTo w i) : encodeValue i = w.val := by
  cases row <;> simp only [encodeValue] <;> omega

theorem encode_decode (w : Word) : encode (decode w) = w := by
  rw [encode, (decodesTo_decode w).encodeValue_eq, cap_val_self]

theorem decodeNat_of_lt {n : Nat} (h : n < 1000) : decodeNat n = .ok (decode ⟨n, h⟩) := by
  have word : Word.ofNat? n = some ⟨n, h⟩ := dif_pos h
  rw [decodeNat, word]

theorem decodeNat_of_le {n : Nat} (h : 1000 ≤ n) : decodeNat n = .error (.notAWord n) := by
  have noWord : Word.ofNat? n = none := dif_neg (Nat.not_lt.2 h)
  rw [decodeNat, noWord]

/-- What a number that decodes is, and what it decodes to. -/
theorem decodeNat_ok {n : Nat} {i : Instr} (h : decodeNat n = .ok i) : ∃ hn : n < 1000, i = decode ⟨n, hn⟩ := by
  obtain hn | hn := Nat.lt_or_ge n 1000
  · rw [decodeNat_of_lt hn] at h
    exact ⟨hn, (Except.ok.inj h).symm⟩
  · rw [decodeNat_of_le hn] at h
    cases h

/-- Settles O3: below 1000 a number is the word decoded, and encoding undoes the decoder. -/
theorem decodedWordEncodesBack : Obligations.DecodedWordEncodesBack := by
  refine ⟨fun n i h => ?_, fun n hn => ⟨_, decodeNat_of_lt hn⟩, fun n => decodeNat_of_le⟩
  obtain ⟨hn, rfl⟩ := decodeNat_ok h
  exact ⟨hn, decode_wellFormed _, congrArg Fin.val (encode_decode _), decode_ne_dat _⟩

/-- Settles O1: its clauses are the rows of `DecodesTo`. -/
theorem decodeFollowsTheRanges : Obligations.DecodeFollowsTheRanges := by
  intro w
  exact ⟨fun h => (DecodesTo.hlt h).decode_eq,
    fun lo hi => (DecodesTo.illegalLow0xx lo hi).decode_eq,
    fun lo hi => (DecodesTo.add lo hi).decode_eq,
    fun lo hi => (DecodesTo.sub lo hi).decode_eq,
    fun lo hi => (DecodesTo.sta lo hi).decode_eq,
    fun lo hi => (DecodesTo.illegalUnassigned4xx lo hi).decode_eq,
    fun lo hi => (DecodesTo.lda lo hi).decode_eq,
    fun lo hi => (DecodesTo.bra lo hi).decode_eq,
    fun lo hi => (DecodesTo.brz lo hi).decode_eq,
    fun lo hi => (DecodesTo.brp lo hi).decode_eq,
    fun h => (DecodesTo.illegalReserved900 h).decode_eq,
    fun h => (DecodesTo.inp h).decode_eq,
    fun h => (DecodesTo.out h).decode_eq,
    fun lo hi => (DecodesTo.illegalHigh9xx lo hi).decode_eq⟩

/-- Settles O4: the decoder evaluated on the fourteen words. -/
theorem writtenOutWordsDecode : Obligations.WrittenOutWordsDecode := by
  unfold Obligations.WrittenOutWordsDecode
  decide

end Sys2Proof.Machine
end

section
/-! DAT executes as its word, and every other instruction answers a next state when its collaborators answer (30_encoding
R88, 70_reset_and_hazards R273). -/

namespace Sys2Proof.Machine

theorem exec_dat {v : Int} (wf : WellFormed (.dat v)) (s : State) :
    exec (.dat v) s = exec (decode (encode (.dat v))) s := by
  rw [← execWord_eq_exec_decode]
  exact if_pos wf

theorem wellFormed_dat {v : Int} (lo : -999 ≤ v) (hi : v ≤ 999) : WellFormed (.dat v) := by
  simp [WellFormed, Instr.wellFormed, datOk, lo, hi]

/-- INP asks for an integer in Blocking mode only, and then the producer has one. -/
theorem execInp_completes {s : State} (answer : CollaboratorsAnswer s) : ∃ t, execInp s = .next t := by
  unfold execInp
  cases mode : s.cfg.inputMode with
  | suspension => exact ⟨_, rfl⟩
  | blocking =>
    obtain ⟨v, hv⟩ := Option.isSome_iff_exists.1 (answer.input mode)
    rw [hv]
    exact ⟨_, rfl⟩

/-- Only INP, OUT and HLT wait for a collaborator; every other instruction answers a next state in any case. -/
theorem exec_completes_of_ne_dat {i : Instr} {s : State} (notDat : ∀ v, i ≠ .dat v) (answer : CollaboratorsAnswer s) :
    ∃ t, exec i s = .next t := by
  cases i with
  | dat v => exact absurd rfl (notDat v)
  | inp => exact execInp_completes answer
  | out | hlt => exact ⟨_, if_pos answer.output⟩
  | _ => exact ⟨_, rfl⟩

/-- Settles O22: the word of a DAT in range decodes to another instruction, which completes. -/
theorem datRunsAsItsWord : Obligations.DatRunsAsItsWord := by
  refine ⟨fun s v lo hi => exec_dat (wellFormed_dat lo hi) s, fun s v lo hi answer => ?_⟩
  rw [exec_dat (wellFormed_dat lo hi)]
  exact exec_completes_of_ne_dat (decode_ne_dat _) answer

end Sys2Proof.Machine
end

section
/-! The word of DAT (40_assembler R128, R129). -/

namespace Sys2Proof.Machine

/-- A DAT's word is its value capped: the offset is a multiple of 1000. -/
theorem encode_dat (v : Int) : encode (.dat v) = cap v := cap_enc v

/-- Settles O5: the word is `cap v`, which the signed view undoes in -500..499 and which values 1000 apart share. -/
theorem datWordIsOffsetEncoded : Obligations.DatWordIsOffsetEncoded := by
  intro v lo hi
  rw [encode_dat, encode_dat]
  refine ⟨?_, dec_cap_eq_self_iff v, fun _ => cap_eq_cap_iff.2 (Int.sub_emod_right v 1000).symm⟩
  rw [cap_val_cast]
  split <;> omega

end Sys2Proof.Machine
end

section
/-! The two error modes (40_assembler R116, R130, R134): noted errors stay noted, and the passes in mode First and in mode All
do the same up to the first error. -/

namespace Sys2Proof.Machine

theorem scanLine_errors {ln : Nat} {line : Line} {st t : AsmState} (h : scanLine ln line st = .ok t) :
    t.errors = st.errors := by
  obtain ⟨-, rfl⟩ | ⟨_, _, _, _, -, -, -, -, rfl⟩ := scanLine_ok h <;> rfl

theorem errors_prefix_noteError (e : AsmError) (st : AsmState) : st.errors <+: (noteError e st).errors :=
  List.prefix_append _ _

theorem errors_prefix_pass1 (mode : ErrorMode) (ln : Nat) (lines : List Line) (st : AsmState) :
    st.errors <+: (pass1 mode ln lines st).errors := by
  refine pass1_keeps (P := fun t => st.errors <+: t.errors) ?scan ?note (List.prefix_refl _)
  case scan =>
    intro _ _ _ _ h scanned
    rw [scanLine_errors scanned]
    exact h
  case note => exact fun e t h => h.trans (errors_prefix_noteError e t)

theorem errors_prefix_pass2 (mode : ErrorMode) (records : List Record) (st : AsmState) :
    st.errors <+: (pass2 mode records st).errors := by
  induction records generalizing st with
  | nil => exact List.prefix_refl _
  | cons r records ih =>
    unfold pass2
    split
    case h_1 w _ => exact ih { st with out := st.out ++ [w] }
    case h_2 => cases mode with
      | first => exact errors_prefix_noteError _ _
      | all => exact (errors_prefix_noteError _ _).trans (ih _)

/-- How a pass in mode First ends, against the same pass in mode All: in the same state without an error, or with the first
of mode All's errors. -/
inductive UpToFirstError : AsmState → AsmState → Prop
  | clean {st : AsmState} (noError : st.errors = []) : UpToFirstError st st
  | failed {first all : AsmState} {e : AsmError} {rest : List AsmError} (one : first.errors = [e])
    (more : all.errors = e :: rest) : UpToFirstError first all

/-- From a state without errors mode First stops at `e`, while mode All notes `e` and goes on. -/
theorem UpToFirstError.of_noteError {st all : AsmState} {e : AsmError} (noError : st.errors = [])
    (goesOn : (noteError e st).errors <+: all.errors) : UpToFirstError (noteError e st) all := by
  have one : (noteError e st).errors = [e] := by rw [noteError, noError, List.nil_append]
  rw [one] at goesOn
  obtain ⟨rest, more⟩ := goesOn
  exact .failed one more.symm

theorem pass1_upToFirstError (ln : Nat) (lines : List Line) {st : AsmState} (noError : st.errors = []) :
    UpToFirstError (pass1 .first ln lines st) (pass1 .all ln lines st) := by
  induction lines generalizing ln st with
  | nil => exact .clean noError
  | cons line lines ih =>
    unfold pass1
    split
    case h_1 scanned => exact ih _ ((scanLine_errors scanned).trans noError)
    case h_2 => exact .of_noteError noError (errors_prefix_pass1 _ _ _ _)

theorem pass2_upToFirstError (records : List Record) {st : AsmState} (noError : st.errors = []) :
    UpToFirstError (pass2 .first records st) (pass2 .all records st) := by
  induction records generalizing st with
  | nil => exact .clean noError
  | cons r records ih =>
    unfold pass2
    split
    · exact ih noError
    · exact .of_noteError noError (errors_prefix_pass2 _ _ _)

theorem asmAnswer_of_noError {st : AsmState} (h : st.errors = []) :
    asmAnswer st = .success (padImage st.out) st.out.length := if_pos h

theorem asmAnswer_of_errors {st : AsmState} {e : AsmError} {rest : List AsmError} (h : st.errors = e :: rest) :
    asmAnswer st = .failure (e :: rest) := by
  rw [asmAnswer, h, if_neg (List.cons_ne_nil e rest)]

theorem assemble_all (lines : List Line) : assemble .all lines = asmAnswer (assembled .all lines) := by
  rw [assemble, if_neg (not_and_of_not_left _ nofun), assembled]

theorem assemble_first_of_noError {lines : List Line} (h : (pass1 .first 0 lines .empty).errors = []) :
    assemble .first lines = asmAnswer (assembled .first lines) := if_neg fun failed => failed.2 h

theorem assemble_first_of_errors {lines : List Line} {e : AsmError} {rest : List AsmError}
    (h : (pass1 .first 0 lines .empty).errors = e :: rest) : assemble .first lines = .failure (e :: rest) := by
  rw [assemble, h, if_pos ⟨rfl, List.cons_ne_nil e rest⟩]

/-- The answer of mode First against that of mode All: the same image, or the first of its errors. -/
inductive AnswerUpToFirstError : AsmResult → AsmResult → Prop
  | success (out : List Word) (used : Nat) : AnswerUpToFirstError (.success out used) (.success out used)
  | failure (e : AsmError) (rest : List AsmError) : AnswerUpToFirstError (.failure [e]) (.failure (e :: rest))

theorem UpToFirstError.answer {first all : AsmState} (h : UpToFirstError first all) :
    AnswerUpToFirstError (asmAnswer first) (asmAnswer all) := by
  cases h with
  | clean noError =>
    rw [asmAnswer_of_noError noError]
    exact .success _ _
  | failed one more =>
    rw [asmAnswer_of_errors one, asmAnswer_of_errors more]
    exact .failure _ _

/-- An error of pass 1 ends mode First there; without one, both modes run pass 2 from the same state. -/
theorem assemble_upToFirstError (lines : List Line) :
    AnswerUpToFirstError (assemble .first lines) (assemble .all lines) := by
  have scanned := pass1_upToFirstError 0 lines (st := .empty) rfl
  rw [assemble_all, assembled]
  generalize pass1 .all 0 lines .empty = stAll at scanned
  generalize endFirst : pass1 .first 0 lines .empty = stFirst at scanned
  cases scanned with
  | clean noError =>
    rw [assemble_first_of_noError (endFirst ▸ noError), assembled, endFirst]
    exact (pass2_upToFirstError _ noError).answer
  | failed one more =>
    obtain ⟨later, errors⟩ := errors_prefix_pass2 .all stAll.records stAll
    rw [more] at errors
    rw [assemble_first_of_errors (endFirst ▸ one), asmAnswer_of_errors errors.symm]
    exact .failure _ _

/-- Settles O54: answers that agree up to the first error are the same success or both failures. -/
theorem errorModesAgreeOnSuccess : Obligations.ErrorModesAgreeOnSuccess := by
  intro lines out used
  have agree := assemble_upToFirstError lines
  generalize assemble .first lines = first, assemble .all lines = all at agree
  cases agree with
  | success => exact Iff.rfl
  | failure => exact ⟨nofun, nofun⟩

/-- Settles O55: a failure in mode All has mode First's error at its head. -/
theorem firstModeReportsTheFirstError : Obligations.FirstModeReportsTheFirstError := by
  intro lines errors h
  have agree := assemble_upToFirstError lines
  rw [h] at agree
  generalize assemble .first lines = first at agree
  cases agree with
  | failure e rest => exact ⟨e, rest, rfl, rfl⟩

end Sys2Proof.Machine
end

section
/-! What pass 1 leaves in its tables, and the image pass 2 makes of the records (40_assembler R104 to R115, R130 to R132). -/

namespace Sys2Proof.Machine

theorem ne_nil_of_mem_tokensFrom {t held : Token} {line : Line} (h : t ∈ tokensFrom held line) : t ≠ [] := by
  induction line generalizing held with
  | nil =>
    unfold tokensFrom at h
    split at h
    · cases h
    · rwa [List.mem_singleton.1 h]
  | cons c rest ih =>
    unfold tokensFrom at h
    split at h
    · split at h
      · exact ih h
      · obtain rfl | h := List.mem_cons.1 h
        · assumption
        · exact ih h
    · exact ih h

theorem mem_of_shape {ts : List Token} {label : Option Token} {m a : Token} (h : shape ts = some (label, m, some a)) :
    a ∈ ts := by
  unfold shape at h
  split at h
  · cases h
  · split at h <;> cases h
    exact List.mem_cons_of_mem _ (List.mem_singleton_self _)
  · cases h
    exact List.mem_cons_of_mem _ (List.mem_cons_of_mem _ (List.mem_singleton_self _))
  · cases h

/-- An argument is a token, so it is not empty (40_assembler R104). -/
theorem pass1_arg_ne_nil {mode : ErrorMode} {lines : List Line} {r : Record}
    (h : r ∈ (pass1 mode 0 lines .empty).records) : r.arg ≠ some [] := by
  revert r
  refine pass1_keeps (P := fun st => ∀ {r}, r ∈ st.records → r.arg ≠ some []) ?scan (fun _ _ h => h)
    (fun h => absurd h List.not_mem_nil)
  intro ln line st t ih scanned r hr
  obtain ⟨-, rfl⟩ | ⟨label, m, arg, op, shaped, -, -, -, rfl⟩ := scanLine_ok scanned
  · exact ih hr
  · obtain hr | hr := List.mem_append.1 hr
    · exact ih hr
    · obtain rfl := List.mem_singleton.1 hr
      rintro rfl
      exact ne_nil_of_mem_tokensFrom (mem_of_shape shaped) rfl

theorem getElem?_append_of_eq_some {α : Type} {xs : List α} {i : Nat} {x : α} (h : xs[i]? = some x) (ys : List α) :
    (xs ++ ys)[i]? = some x :=
  (List.getElem?_append_left (List.getElem?_eq_some_iff.1 h).1).trans h

/-- A label's index is that of the record of the line that bound it (40_assembler R111). -/
def BoundToRecord (records : List Record) (e : LabelEntry) : Prop :=
  ∃ r, records[e.index]? = some r ∧ r.line = e.line

theorem BoundToRecord.append {records : List Record} {e : LabelEntry} (h : BoundToRecord records e) (r : Record) :
    BoundToRecord (records ++ [r]) e := by
  obtain ⟨r', hr, line⟩ := h
  exact ⟨r', getElem?_append_of_eq_some hr _, line⟩

theorem mem_bindLabel {label : Option Token} {ln : Nat} {st : AsmState} {e : LabelEntry} (h : e ∈ bindLabel label ln st) :
    e ∈ st.labels ∨ e.index = st.records.length ∧ e.line = ln := by
  cases label with
  | none => exact .inl h
  | some name =>
    obtain h | h := List.mem_append.1 h
    · exact .inl h
    · obtain rfl := List.mem_singleton.1 h
      exact .inr ⟨rfl, rfl⟩

theorem pass1_boundToRecord {mode : ErrorMode} {lines : List Line} {e : LabelEntry}
    (h : e ∈ (pass1 mode 0 lines .empty).labels) : BoundToRecord (pass1 mode 0 lines .empty).records e := by
  revert e
  refine pass1_keeps (P := fun st => ∀ {e}, e ∈ st.labels → BoundToRecord st.records e) ?scan (fun _ _ h => h)
    (fun h => absurd h List.not_mem_nil)
  intro ln line st t ih scanned e he
  obtain ⟨-, rfl⟩ | ⟨label, m, arg, op, -, -, -, -, rfl⟩ := scanLine_ok scanned
  · exact ih he
  · obtain he | ⟨index, line⟩ := mem_bindLabel he
    · exact (ih he).append _
    · exact ⟨_, index ▸ List.getElem?_concat_length, line.symm⟩

theorem pass1_index_lt {mode : ErrorMode} {lines : List Line} {e : LabelEntry}
    (h : e ∈ (pass1 mode 0 lines .empty).labels) : e.index < 100 := by
  obtain ⟨r, hr, -⟩ := pass1_boundToRecord h
  exact Nat.lt_of_lt_of_le (List.getElem?_eq_some_iff.1 hr).1 (pass1_records_length_le mode lines)

theorem mem_of_lookupLabel {labels : List LabelEntry} {l : Token} {e : LabelEntry} (h : lookupLabel labels l = some e) :
    e ∈ labels := List.mem_of_find?_eq_some h

/-- A pass 2 that ends without an error emits one word for each record, in order (40_assembler R130). -/
theorem pass2_emits {mode : ErrorMode} {records : List Record} {st : AsmState}
    (noError : (pass2 mode records st).errors = []) :
    ∃ ws, (pass2 mode records st).out = st.out ++ ws ∧ records.map (emitRecord st.labels) = ws.map .ok := by
  induction records generalizing st with
  | nil => exact ⟨[], (List.append_nil _).symm, rfl⟩
  | cons r records ih =>
    cases emitted : emitRecord st.labels r with
    | ok w =>
      simp only [pass2, emitted] at noError ⊢
      obtain ⟨ws, out, words⟩ := ih noError
      exact ⟨w :: ws, by rw [out, List.append_assoc]; rfl, by rw [List.map_cons, emitted, words]; rfl⟩
    | error e =>
      have noted : (noteError e st).errors <+: [] := by
        rw [← noError]
        simp only [pass2, emitted]
        cases mode with
        | first => exact List.prefix_refl _
        | all => exact errors_prefix_pass2 _ _ _
      exact absurd (List.prefix_nil.1 noted) (List.concat_ne_nil e st.errors)

/-- Word `j` of a successful assembly's image is the word of record `j`. -/
theorem assemble_emits {mode : ErrorMode} {lines : List Line} {out : List Word} {used j : Nat} {r : Record}
    (h : assemble mode lines = .success out used) (hr : (pass1 mode 0 lines .empty).records[j]? = some r) :
    ∃ w, out[j]? = some w ∧ emitRecord (pass1 mode 0 lines .empty).labels r = .ok w := by
  obtain ⟨noError, rfl, -⟩ := assemble_success h
  obtain ⟨ws, emitted, words⟩ := pass2_emits noError
  have word : (ws.map Except.ok)[j]? = some (emitRecord (pass1 mode 0 lines .empty).labels r) := by
    rw [← words, List.getElem?_map, hr]
    rfl
  obtain ⟨w, hw, ok⟩ := Option.map_eq_some_iff.1 ((List.getElem?_map ..).symm.trans word)
  refine ⟨w, ?_, ok.symm⟩
  rw [assembled, emitted, pass1_out, List.nil_append]
  exact getElem?_append_of_eq_some hw _

theorem padImage_getElem? {out : List Word} {i : Nat} (lo : out.length ≤ i) (hi : i < 100) :
    (padImage out)[i]? = some 0 := by
  rw [padImage, List.getElem?_append_right lo]
  exact List.getElem?_replicate_of_lt (Nat.sub_lt_sub_right lo hi)

/-- Settles O53: at most 100 words are emitted, and the rest of the image is the padding. -/
theorem assembledImageIsPadded : Obligations.AssembledImageIsPadded := by
  intro mode lines out used h
  have length := assemble_success_length h
  obtain ⟨-, rfl, rfl⟩ := assemble_success h
  exact ⟨length, assembled_out_length_le mode lines, fun i lo hi => padImage_getElem? lo hi⟩

end Sys2Proof.Machine
end

section
/-! The word of a record that is no DAT: the instruction its mnemonic names with the operand its argument stands for
(40_assembler R120 to R124, R136; 30_encoding R84). -/

namespace Sys2Proof.Machine

/-- The two-digit string of an index is two digits that write the index. -/
theorem twoDigits_digits {n : Nat} (h : n < 100) :
    (twoDigits n).all isDigit = true ∧ decimalValue (twoDigits n) = n := by
  revert n
  decide

theorem decimalValue_lt {a : Token} (short : a.length ≤ 2) (digits : a.all isDigit = true) : decimalValue a < 100 := by
  have digit_le : ∀ c ∈ a, c.toNat - 48 ≤ 9 := by
    intro c hc
    have := List.all_eq_true.1 digits c hc
    simp only [isDigit, Bool.and_eq_true, decide_eq_true_eq] at this
    omega
  match a, short with
  | [], _ => decide
  | [c], _ =>
    have := digit_le c (by simp)
    simp only [decimalValue, List.foldl]
    omega
  | [c, d], _ =>
    have := digit_le c (by simp)
    have := digit_le d (by simp)
    simp only [decimalValue, List.foldl]
    omega

theorem emitTemplated_ok {op : Nat} {r : Record} {arg : Option Token} {w : Word} (h : emitTemplated op r arg = .ok w) :
    ∃ a, arg = some a ∧ a.length ≤ 2 ∧ a.all isDigit = true ∧ w = cap (100 * op + decimalValue a) := by
  cases arg with
  | none => cases h
  | some a =>
    simp only [emitTemplated] at h
    split at h <;> rename_i short
    · cases h
    · split at h <;> rename_i digits
      · exact ⟨a, rfl, Nat.le_of_not_lt short, digits, (Except.ok.inj h).symm⟩
      · cases h

theorem emitRecord_fixed_ok {labels : List LabelEntry} {r : Record} {i : Instr} {w : Word}
    (emission : r.mnemonic.emission = .fixed i) (h : emitRecord labels r = .ok w) : r.arg = none ∧ w = encode i := by
  simp only [emitRecord, emission] at h
  split at h
  · cases h
  · exact ⟨‹_›, (Except.ok.inj h).symm⟩

/-- The word of a templated mnemonic is its digit followed by the operand its argument stands for. -/
theorem emitRecord_templated_ok {labels : List LabelEntry} {r : Record} {op : Nat} {w : Word}
    (bound : ∀ e ∈ labels, e.index < 100) (token : r.arg ≠ some []) (emission : r.mnemonic.emission = .templated op)
    (h : emitRecord labels r = .ok w) :
    ∃ n, operandOf labels r.arg = some n ∧ n < 100 ∧ w = cap (100 * op + n) := by
  simp only [emitRecord, emission] at h
  obtain ⟨a, substituted, short, digits, rfl⟩ := emitTemplated_ok h
  obtain ⟨l, arg, rfl⟩ := Option.map_eq_some_iff.1 substituted
  rw [arg] at token ⊢
  cases found : lookupLabel labels l with
  | some e =>
    have index := bound e (mem_of_lookupLabel found)
    exact ⟨e.index, by simp only [operandOf, found], index, by simp only [(twoDigits_digits index).2]⟩
  | none =>
    simp only [found] at short digits ⊢
    have nonempty : l ≠ [] := fun empty => token (congrArg some empty)
    exact ⟨decimalValue l, by simp only [operandOf, found]; exact if_pos ⟨nonempty, short, digits⟩,
      decimalValue_lt short digits, rfl⟩

theorem named_of_fixed {m : Mnemonic} {i : Instr} (h : m.emission = .fixed i) :
    named m none = some i ∧ decode (encode i) = i := by
  cases m <;> cases h <;> decide

/-- A templated mnemonic names the instruction whose word is its digit followed by the operand (30_encoding R84). -/
theorem named_of_templated {m : Mnemonic} {op n : Nat} (h : m.emission = .templated op) (hn : n < 100) :
    ∃ i, named m (some n) = some i ∧ WellFormed i ∧ (∀ v, i ≠ .dat v) ∧ encode i = cap (100 * op + n) := by
  cases m <;> cases h <;> exact ⟨_, rfl, decide_eq_true hn, nofun, rfl⟩

theorem templated_digit_lt {m : Mnemonic} {op : Nat} (h : m.emission = .templated op) : op < 10 := by
  cases m <;> cases h <;> decide

theorem eq_dat_of_data {m : Mnemonic} (h : m.emission = .data) : m = .dat := by
  cases m <;> cases h
  rfl

theorem cap_digits {op n : Nat} (hop : op < 10) (hn : n < 100) :
    (cap (100 * op + n)).val % 100 = n ∧ (cap (100 * op + n)).val / 100 = op := by
  have value := cap_val_cast (100 * op + n)
  omega

/-- Settles O57: the word encodes the named instruction, and decoding undoes the encoding. -/
theorem emittedInstructionsDecodeBack : Obligations.EmittedInstructionsDecodeBack := by
  intro mode lines out used j r success hr notDat
  obtain ⟨w, hw, emitted⟩ := assemble_emits success hr
  refine ⟨w, hw, ?_⟩
  cases emission : r.mnemonic.emission with
  | fixed i =>
    obtain ⟨noArg, rfl⟩ := emitRecord_fixed_ok emission emitted
    obtain ⟨name, decoded⟩ := named_of_fixed emission
    rw [noArg, decoded]
    exact ⟨name, fun _ => rfl⟩
  | templated op =>
    obtain ⟨n, operand, hn, rfl⟩ := emitRecord_templated_ok (fun _ => pass1_index_lt)
      (pass1_arg_ne_nil (List.mem_of_getElem? hr)) emission emitted
    obtain ⟨i, name, wf, ne_dat, word⟩ := named_of_templated emission hn
    rw [operand, ← word, encodedInstructionDecodesBack i wf ne_dat]
    exact ⟨name, nofun⟩
  | data => exact absurd (eq_dat_of_data emission) notDat

/-- Settles O56: the operand of a bound label is its index, and the label is bound to the record of its line. -/
theorem labelArgumentsResolve : Obligations.LabelArgumentsResolve := by
  intro mode lines out used j op r l e success hr emission arg found
  obtain ⟨w, hw, emitted⟩ := assemble_emits success hr
  obtain ⟨n, operand, hn, rfl⟩ := emitRecord_templated_ok (fun _ => pass1_index_lt)
    (pass1_arg_ne_nil (List.mem_of_getElem? hr)) emission emitted
  obtain rfl : e.index = n := by simpa only [arg, operandOf, found, Option.some_inj] using operand
  obtain ⟨address, digit⟩ := cap_digits (templated_digit_lt emission) hn
  exact ⟨_, hw, address, digit, pass1_boundToRecord (mem_of_lookupLabel found)⟩

end Sys2Proof.Machine
end

section
/-! The host's requests and what serves each, and the engine step by status, trace consumer and counter (41_step_cycle R150,
R163, R172; 60_exceptions R233). -/

namespace Sys2Proof.Machine

theorem step_of_noRequest {s : State} (h : s.script = []) : step s = engineStep s := by
  unfold step serve
  rw [h]

theorem step_of_stepRequest {s : State} {r : Bool} {rest : List HostRequest} (h : s.script = .step r :: rest) :
    step s = engineStep { s with resume := r, script := rest } := by
  unfold step serve
  rw [h]

theorem step_of_runRequest {s : State} {rest : List HostRequest} (h : s.script = .run :: rest) :
    step s = runTurn rest s := by
  unfold step serve
  rw [h]

theorem step_of_delivery {s : State} {v : Int} {rest : List HostRequest} (h : s.script = .deliverInput v :: rest) :
    step s = deliverInput v { s with script := rest } := by
  unfold step serve
  rw [h]

theorem step_of_reset {s : State} {rest : List HostRequest} (h : s.script = .reset :: rest) :
    step s = .next (hostReset { s with script := rest }) := by
  unfold step serve
  rw [h]

/-- With a trace consumer that returns, the engine in Ready executes the word at `pc` below the end of memory. -/
theorem engineStep_eq_exec {s : State} (ready : s.status = .ready) (returns : s.cfg.traceReturns = true)
    (hp : s.pc < 100) : engineStep s = exec (decode (wordAt s s.pc)) (afterFetch s) := by
  unfold engineStep
  rw [ready]
  exact (if_pos returns).trans (if_pos hp)

theorem engineStep_pastEnd {s : State} (ready : s.status = .ready) (returns : s.cfg.traceReturns = true)
    (hp : ¬s.pc < 100) : engineStep s = .next (fetchPastEnd s) := by
  unfold engineStep
  rw [ready]
  exact (if_pos returns).trans (if_neg hp)

/-- Why a status other than Ready refuses a step (41_step_cycle R163). -/
def stepRefusal : Status → Option Refusal
  | .ready => none
  | .halted => some .stepWhenHalted
  | .awaitingInput _ => some .stepWhileAwaitingInput
  | .faulted _ _ _ => some .stepWhenFaulted

theorem engineStep_refused {s : State} {why : Refusal} (h : stepRefusal s.status = some why) :
    engineStep s = .refused why := by
  unfold engineStep
  cases status : s.status <;> rw [status] at h <;> cases h <;> rfl

/-- The host requests steps of the engine: one by an empty script or a step request, or a run. -/
def RequestsEngine (s : State) : Prop :=
  s.script = [] ∨ (∃ r rest, s.script = .step r :: rest) ∨ ∃ rest, s.script = .run :: rest

theorem step_refused {s : State} {why : Refusal} (request : RequestsEngine s) (h : stepRefusal s.status = some why) :
    step s = .refused why := by
  obtain empty | ⟨r, rest, one⟩ | ⟨rest, run⟩ := request
  · rw [step_of_noRequest empty, engineStep_refused h]
  · rw [step_of_stepRequest one]
    exact engineStep_refused h
  · have refused : engineStep { s with resume := true, script := rest } = .refused why := engineStep_refused h
    rw [step_of_runRequest run, runTurn, refused]

/-- Settles O31: `stepRefusal` names the refusal of each status. -/
theorem stepRefusedUnlessReady : Obligations.StepRefusedUnlessReady :=
  fun _ request =>
    ⟨fun halted => step_refused request (congrArg stepRefusal halted),
      fun _ awaiting => step_refused request (congrArg stepRefusal awaiting),
      fun _ _ _ faulted => step_refused request (congrArg stepRefusal faulted)⟩

/-- The fetch adds the high trace and the two medium traces, in this order (41_step_cycle R151, R152). -/
theorem afterFetch_events (s : State) : (afterFetch s).events = s.events ++ [.trace .high (.fetchAddress s.pc),
    .trace .medium (.instructionValue (wordAt s s.pc)), .trace .medium (.dump s.mem s.acc s.pc)] := by
  rw [afterFetch_eq, List.append_assoc, List.append_assoc]
  rfl

/-- Settles O29: the state after the fetch is `afterFetch s`. -/
theorem stepRunsTheDecodedInstruction : Obligations.StepRunsTheDecodedInstruction := by
  rintro s i requested returns hp rfl
  exact ⟨afterFetch s, step_eq_exec requested returns hp, rfl, rfl, rfl, rfl, rfl, rfl, rfl, afterFetch_events s,
    ⟨rfl, rfl⟩, ⟨rfl, rfl, rfl, rfl⟩⟩

theorem runTurn_of_next {s u : State} {rest : List HostRequest}
    (h : engineStep { s with resume := true, script := rest } = .next u) :
    runTurn rest s = .next (if u.status = .ready then { u with script := .run :: rest, reply := .nothing } else u) := by
  rw [runTurn, h]
  exact (apply_ite Host.Outcome.next _ _ _).symm

theorem runTurn_of_fault {s : State} {rest : List HostRequest} {f : Fault}
    (h : engineStep { s with resume := true, script := rest } = .fault f) : runTurn rest s = .fault f := by
  rw [runTurn, h]

/-- A step request, and a run's step with `resume = true`, past the end of memory (60_exceptions R233). -/
theorem step_pastEnd {s : State} {q : HostRequest} {r : Bool} {rest : List HostRequest} (request : s.script = q :: rest)
    (flag : q = .step r ∨ (q = .run ∧ r = true)) (ready : s.status = .ready) (returns : s.cfg.traceReturns = true)
    (hp : ¬s.pc < 100) : step s = .next (fetchPastEnd { s with resume := r, script := rest }) := by
  have served : engineStep { s with resume := r, script := rest } =
      .next (fetchPastEnd { s with resume := r, script := rest }) := engineStep_pastEnd ready returns hp
  obtain rfl | ⟨rfl, rfl⟩ := flag
  · rw [step_of_stepRequest request, served]
  · rw [step_of_runRequest request, runTurn_of_next served]
    rfl

/-- Settles O30: a request is served by `engineStep`, which in Ready executes the word at `pc` or is past the end. -/
theorem stepAndRunRequestsRunTheEngine : Obligations.StepAndRunRequestsRunTheEngine := by
  refine ⟨?one, ?run, ?stuck, ?pastEnd⟩
  case one =>
    intro s r rest request ready returns hp
    rw [step_of_stepRequest request]
    exact engineStep_eq_exec ready returns hp
  case run =>
    intro s u rest request ready returns hp h
    rw [step_of_runRequest request]
    exact runTurn_of_next ((engineStep_eq_exec (s := { s with resume := true, script := rest }) ready returns hp).trans h)
  case stuck =>
    intro s f rest request ready returns hp h
    rw [step_of_runRequest request]
    exact runTurn_of_fault ((engineStep_eq_exec (s := { s with resume := true, script := rest }) ready returns hp).trans h)
  case pastEnd =>
    intro s q r rest request flag ready returns hp
    refine ⟨_, step_pastEnd request flag ready returns (Nat.not_lt.2 (Nat.le_of_eq hp.symm)), hp, rfl, fun _ => rfl, rfl,
      ?_, ⟨rfl, rfl⟩, rfl, rfl, rfl, rfl, rfl, rfl⟩
    rw [← hp]
    rfl

/-- Settles O41: below the end of memory the decoded instruction completes, and past it the fatal error is the answer. -/
theorem readyStepCompletes : Obligations.ReadyStepCompletes := by
  intro s requested answer returns
  rw [step_of_requested requested]
  by_cases hp : s.pc < 100
  · rw [engineStep_eq_exec requested.ready returns hp]
    exact exec_completes_of_ne_dat (decode_ne_dat _) ⟨answer.output, answer.input⟩
  · exact ⟨_, engineStep_pastEnd requested.ready returns hp⟩

end Sys2Proof.Machine
end

section
/-! Deliveries, and INP in the two input modes (41_step_cycle R164, R165, R169; 45_io_halt R211, R212). -/

namespace Sys2Proof.Machine

theorem deliverInput_awaited {v : Int} {r : Bool} {s : State} (mode : s.cfg.inputMode = .suspension)
    (awaited : s.status = .awaitingInput r) :
    deliverInput v s = .next { accWrite (enc v) s with status := .ready, reply := .resume r } := by
  rw [deliverInput, mode, awaited]

theorem deliverInput_blocking {v : Int} {s : State} (mode : s.cfg.inputMode = .blocking) :
    deliverInput v s = .refused .deliveryInBlockingMode := by
  rw [deliverInput, mode]

theorem deliverInput_notAwaited {v : Int} {s : State} (mode : s.cfg.inputMode = .suspension)
    (notAwaited : ∀ r, s.status ≠ .awaitingInput r) : deliverInput v s = .refused .inputNotAwaited := by
  rw [deliverInput, mode]
  cases status : s.status with
  | awaitingInput r => exact absurd status (notAwaited r)
  | _ => rfl

/-- Settles O46: the delivery writes `cap (enc v)`, the latch, the reply and the record, and nothing else. -/
theorem deliveredInputResumes : Obligations.DeliveredInputResumes := by
  intro s v r rest mode awaited request
  refine ⟨_, (step_of_delivery request).trans (deliverInput_awaited mode awaited), ?acc, rfl, rfl, rfl, fun _ => rfl, rfl,
    rfl, rfl, rfl, ⟨rfl, rfl⟩, rfl⟩
  change ((cap (enc v)).val : Int) = v % 1000
  rw [cap_enc, cap_val_cast]

/-- Settles O47: one refusal for each mode. -/
theorem deliveryRefusedUnlessAwaited : Obligations.DeliveryRefusedUnlessAwaited := by
  intro s v rest request
  rw [step_of_delivery request]
  exact ⟨fun mode => deliverInput_blocking mode, fun mode notAwaited => deliverInput_notAwaited mode notAwaited⟩

theorem exec_inp_blocking {s : State} {v : Int} (mode : s.cfg.inputMode = .blocking) (next : nextInput s = some v) :
    exec .inp s =
      .next (finish .continued (maybeTeach .inp [] (cap (enc v)).val (accWrite (enc v) (consumeInput v s)))) := by
  change execInp s = _
  rw [execInp, mode, next]
  rfl

theorem exec_inp_suspension {s : State} (mode : s.cfg.inputMode = .suspension) :
    exec .inp s = .next (finish (.awaitingInput s.resume) (maybeTeach .inp [] s.acc.val s)) := by
  change execInp s = _
  rw [execInp, mode]

/-- Settles O49: both ways write `cap (enc v)` on the state after the fetch, and differ in what is exchanged only. -/
theorem suspensionAndDeliveryEqualBlocking : Obligations.SuspensionAndDeliveryEqualBlocking := by
  intro s v requested returns hp inp mode next
  have blocking : step s = .next (finish .continued (maybeTeach .inp [] (cap (enc v)).val
      (accWrite (enc v) (consumeInput v (afterFetch s))))) := by
    rw [step_eq_exec requested returns hp, inp]
    exact exec_inp_blocking mode next
  have suspended : step (inSuspension s) = .next (finish (.awaitingInput s.resume)
      (maybeTeach .inp [] s.acc.val (afterFetch (inSuspension s)))) := by
    have requested' : StepRequested (inSuspension s) := ⟨requested.ready, requested.script⟩
    have fetched : decode (wordAt (inSuspension s) (inSuspension s).pc) = .inp := inp
    rw [step_eq_exec requested' returns hp, fetched]
    exact exec_inp_suspension rfl
  exact ⟨_, _, _, blocking, suspended, deliverInput_awaited rfl rfl, rfl, rfl⟩

end Sys2Proof.Machine
end

section
/-! What the engine's observers get of a step: the instrumentation record and the trace events (41_step_cycle R156, R159,
R173, R175). -/

namespace Sys2Proof.Machine

/-- A requested step below the end of memory is one way of executing the word at `pc`. -/
theorem executes_of_step {s t : State} (requested : StepRequested s) (hp : s.pc < 100) (h : step s = .next t) :
    Executes (afterFetch s) (decode (wordAt s s.pc)) t := by
  rw [step_of_requested requested] at h
  obtain ⟨-, e⟩ | ⟨past, -⟩ := engineStep_cases h
  · exact e
  · exact absurd hp past

@[simp] theorem branch_instr (i : Instr) (xs : List Word) (taken : Bool) (n : Nat) (s : State) :
    (branch i xs taken n s).instr = s.instr := by
  rw [branch_eq]

theorem instrTable_of_illegalWord {i : Instr} {p : IllegalClass × Word} (h : illegalWord i = some p) (mode : InputMode)
    (f : AddrSet) : instrTable mode f i = ⟨false, false, f, []⟩ := by
  cases i <;> cases h <;> rfl

/-- From the record the fetch leaves, each rule of an instruction with an encoding leaves the table's row. -/
theorem Executes.instr_eq {i : Instr} {s t : State} {f : AddrSet} (e : Executes s i t) (wf : WellFormed i)
    (fetched : s.instr = ⟨false, false, f, []⟩) : t.instr = instrTable s.cfg.inputMode f i := by
  cases e with
  | bra => rw [branch_instr, fetched]; rfl
  | brz | brp => rw [branch_instr, noteAccRead_instr, fetched]; rfl
  | illegal hw => exact fetched.trans (instrTable_of_illegalWord hw _ f).symm
  | badOperand hi hn => exact absurd (operandAddr_lt wf hi) hn
  | inpBlocking mode | inpSuspension mode => simp [instrTable, mode, fetched]
  | add | sub => rw [arith_eq]; simp [instrTable, fetched]
  | _ => simp [instrTable, AddrSet.insert, fetched]

/-- Settles O34: the fetch leaves the cleared record and the set it contributed. -/
theorem instrumentationFollowsTheTable : Obligations.InstrumentationFollowsTheTable :=
  fun _ _ requested hp h => (executes_of_step requested hp h).instr_eq (decode_wellFormed _) rfl

/-- What holds of the events an instruction adds after the traces of the fetch (41_step_cycle R156, R159). -/
structure TracesOf (i : Instr) (tail : List Event) : Prop where
  low : ∀ e ∈ tail, e.isTrace = true → e.isLowTrace = true
  atMostOne : (tail.filter Event.isLowTrace).length ≤ 1
  taught : teaches i = true → (tail.filter Event.isLowTrace).length = 1
  illegal : (illegalWord i).isSome = true → tail = []

theorem tracesOf_teaching {i : Instr} (teaching : teaches i = true) (k : TraceKind) :
    TracesOf i [.trace .low k] where
  low := by simp [Event.isLowTrace]
  atMostOne := Nat.le_refl 1
  taught _ := rfl
  illegal h := by cases i <;> cases teaching <;> cases h

theorem tracesOf_nil {i : Instr} (free : teaches i = false) : TracesOf i [] where
  low := by simp
  atMostOne := Nat.zero_le 1
  taught h := by simp [free] at h
  illegal _ := rfl

theorem isLowTrace_eq_false {e : Event} (h : e.isTrace = false) : e.isLowTrace = false := by
  cases e with
  | trace => cases h
  | _ => rfl

/-- Exchanges with a collaborator, and a low-verbosity trace or none after them. -/
theorem tracesOf_exchanged {i : Instr} {ex tr : List Event} (free : teaches i = false) (legal : illegalWord i = none)
    (exchanged : ∀ e ∈ ex, e.isTrace = false) (optional : OptionalLowTrace tr) : TracesOf i (ex ++ tr) := by
  have noLow : ex.filter Event.isLowTrace = [] :=
    List.filter_eq_nil_iff.2 fun e he => by simp [isLowTrace_eq_false (exchanged e he)]
  constructor
  case low =>
    intro e he traced
    obtain he | he := List.mem_append.1 he
    · rw [exchanged e he] at traced
      cases traced
    · obtain rfl | ⟨k, rfl⟩ := optional
      · cases he
      · rw [List.mem_singleton.1 he]
        rfl
  case atMostOne =>
    rw [List.filter_append, noLow]
    obtain rfl | ⟨k, rfl⟩ := optional
    · exact Nat.zero_le 1
    · exact Nat.le_refl 1
  case taught => simp [free]
  case illegal => simp [legal]

/-- An unspecified trace after the events exchanged. -/
theorem maybeTeach_tracesOf {i : Instr} {xs : List Word} {r : Nat} {s : State} {past ex : List Event}
    (h : s.events = past ++ ex) (free : teaches i = false) (legal : illegalWord i = none)
    (exchanged : ∀ e ∈ ex, e.isTrace = false) :
    ∃ tail, (maybeTeach i xs r s).events = past ++ tail ∧ TracesOf i tail := by
  obtain same | more := maybeTeach_events_cases i xs r s
  · refine ⟨ex ++ [], ?_, tracesOf_exchanged free legal exchanged (.inl rfl)⟩
    rw [same, h, List.append_nil]
  · refine ⟨_, ?_, tracesOf_exchanged free legal exchanged (.inr ⟨.teaching i xs r, rfl⟩)⟩
    rw [more, h, List.append_assoc]

/-- Every rule of an instruction with an encoding adds events of this kind. -/
theorem Executes.tracesOf {i : Instr} {s t : State} (e : Executes s i t) (wf : WellFormed i) :
    ∃ tail, t.events = s.events ++ tail ∧ TracesOf i tail := by
  have unchanged : s.events = s.events ++ [] := (List.append_nil s.events).symm
  cases e with
  | add | sub => exact ⟨_, rfl, tracesOf_teaching rfl _⟩
  | bra | brz | brp => exact ⟨_, branch_events .., tracesOf_teaching rfl _⟩
  | sta | lda | inpSuspension => exact maybeTeach_tracesOf unchanged rfl rfl (List.forall_mem_nil _)
  | inpBlocking | out | hlt => exact maybeTeach_tracesOf rfl rfl rfl (List.forall_mem_singleton.2 rfl)
  | illegal hw =>
    refine ⟨[], unchanged, tracesOf_nil ?_⟩
    cases i <;> cases hw <;> rfl
  | badOperand hi hn => exact absurd (operandAddr_lt wf hi) hn

/-- Settles O35: the traces of the fetch, then those of the instruction. -/
theorem traceEventsOfAStep : Obligations.TraceEventsOfAStep := by
  intro s t requested hp h
  obtain ⟨tail, events, traces⟩ := (executes_of_step requested hp h).tracesOf (decode_wellFormed _)
  rw [afterFetch_events] at events
  refine ⟨tail, events, traces.low, traces.atMostOne, traces.taught, fun illegal => traces.illegal ?_⟩
  rw [illegalWord_decode, Option.isSome_map, illegal]

end Sys2Proof.Machine
end

section
/-! Noninterference: a relation between machines that every part of a step keeps is kept by every step, whatever request it
serves. Agreement on everything but the observation channels is such a relation, and so is a change of the trace threshold
(10_state R44, 41_step_cycle R174, 60_exceptions R249). -/

namespace Sys2Proof.Machine

/-- Two answers are of the same kind: next states that are related, the same fault, or the same refusal. -/
inductive Alike (R : State → State → Prop) : Result → Result → Prop
  | next {t t' : State} : R t t' → Alike R (.next t) (.next t')
  | fault (f : Fault) : Alike R (.fault f) (.fault f)
  | refused (why : Refusal) : Alike R (.refused why) (.refused why)

/-- The relation relates only machines that differ in observation channels, and every part of a step keeps it. -/
structure StepCongruence (R : State → State → Prop) : Prop where
  same : ∀ {s s'}, R s s' → SameMachine s s'
  script : ∀ {s s'} q, R s s' → R { s with script := q } { s' with script := q }
  resume : ∀ {s s'} r, R s s' → R { s with resume := r } { s' with resume := r }
  reply : ∀ {s s'} p, R s s' → R { s with reply := p } { s' with reply := p }
  afterFetch : ∀ {s s'}, R s s' → R (afterFetch s) (afterFetch s')
  exec : ∀ {s s'} w, R s s' → Alike R (exec (decode w) s) (exec (decode w) s')
  pastEnd : ∀ {s s'}, R s s' → R (fetchPastEnd s) (fetchPastEnd s')
  deliver : ∀ {s s'} v r, R s s' → R { accWrite (enc v) s with status := .ready, reply := .resume r }
    { accWrite (enc v) s' with status := .ready, reply := .resume r }
  reset : ∀ {s s'}, R s s' → R (hostReset s) (hostReset s')

section
variable {R : State → State → Prop} {s s' : State}

theorem StepCongruence.alike_engineStep (c : StepCongruence R) (h : R s s') :
    Alike R (engineStep s) (engineStep s') := by
  have same := c.same h
  have word : fetchedWord s = fetchedWord s' := by rw [fetchedWord, fetchedWord, same.mem, same.pc]
  unfold engineStep
  rw [← same.status, ← same.traceReturns, ← same.pc, ← word]
  split
  · split
    · split
      · exact c.exec _ (c.afterFetch h)
      · exact .next (c.pastEnd h)
    · exact .fault _
  all_goals exact .refused _

/-- The run goes on in both machines or in neither. -/
theorem StepCongruence.alike_runTurn (c : StepCongruence R) (rest : List HostRequest) (h : R s s') :
    Alike R (runTurn rest s) (runTurn rest s') := by
  have turn := c.alike_engineStep (c.script rest (c.resume true h))
  unfold runTurn
  generalize engineStep { s with resume := true, script := rest } = a,
    engineStep { s' with resume := true, script := rest } = a' at turn ⊢
  cases turn with
  | @next u u' hu =>
    have status := (c.same hu).status
    dsimp only
    by_cases ready : u.status = .ready
    · rw [if_pos ready, if_pos (status.symm.trans ready)]
      exact .next (c.reply .nothing (c.script (.run :: rest) hu))
    · rw [if_neg ready, if_neg (status ▸ ready)]
      exact .next hu
  | fault => exact .fault _
  | refused => exact .refused _

theorem StepCongruence.alike_deliverInput (c : StepCongruence R) (v : Int) (h : R s s') :
    Alike R (deliverInput v s) (deliverInput v s') := by
  have same := c.same h
  unfold deliverInput
  rw [← same.inputMode, ← same.status]
  split
  · exact .refused _
  · split
    · exact .next (c.deliver v _ h)
    · exact .refused _

/-- A step of related machines serves the same request, with answers that are related. -/
theorem StepCongruence.alike_step (c : StepCongruence R) (h : R s s') : Alike R (step s) (step s') := by
  have script' : s'.script = s.script := (c.same h).script.symm
  cases script : s.script with
  | nil =>
    rw [step_of_noRequest script, step_of_noRequest (script'.trans script)]
    exact c.alike_engineStep h
  | cons q rest =>
    have served := c.script rest h
    cases q with
    | step r =>
      rw [step_of_stepRequest script, step_of_stepRequest (script'.trans script)]
      exact c.alike_engineStep (c.resume r served)
    | run =>
      rw [step_of_runRequest script, step_of_runRequest (script'.trans script)]
      exact c.alike_runTurn rest h
    | deliverInput v =>
      rw [step_of_delivery script, step_of_delivery (script'.trans script)]
      exact c.alike_deliverInput v served
    | reset =>
      rw [step_of_reset script, step_of_reset (script'.trans script)]
      exact .next (c.reset served)

theorem alike_withAddr {i : Instr} {n : Nat} {body body' : State} (valid : R body body')
    (fatal : R (raiseFatal .addressOutOfRange (s.pc - 1) (some (encode i)) s)
      (raiseFatal .addressOutOfRange (s'.pc - 1) (some (encode i)) s')) :
    Alike R (.next (withAddr i n s body)) (.next (withAddr i n s' body')) := by
  by_cases hn : n < 100
  · rw [withAddr_valid i s body hn, withAddr_valid i s' body' hn]
    exact .next valid
  · rw [withAddr_invalid i s body hn, withAddr_invalid i s' body' hn]
    exact .next fatal

/-- A step that waits for a collaborator ends in both machines or is stuck in both. -/
theorem alike_ifReturns {returns returns' : Bool} {t t' : State} {f : Fault} (same : returns = returns') (h : R t t') :
    Alike R (if returns then .next t else .fault f) (if returns' then .next t' else .fault f) := by
  subst same
  split
  · exact .next h
  · exact .fault f

theorem SameMachine.nextInput_eq (same : SameMachine s s') : nextInput s = nextInput s' := by
  unfold nextInput
  rw [same.inputs, same.inputPos, same.producerAnswers]

theorem alike_execInp (same : SameMachine s s')
    (blocking : ∀ v, R (finish .continued (maybeTeach .inp [] (cap (enc v)).val (accWrite (enc v) (consumeInput v s))))
      (finish .continued (maybeTeach .inp [] (cap (enc v)).val (accWrite (enc v) (consumeInput v s')))))
    (suspension : R (finish (.awaitingInput s.resume) (maybeTeach .inp [] s.acc.val s))
      (finish (.awaitingInput s'.resume) (maybeTeach .inp [] s'.acc.val s'))) :
    Alike R (execInp s) (execInp s') := by
  unfold execInp
  rw [← same.inputMode, ← same.nextInput_eq]
  split
  · split
    · exact .next (blocking _)
    · exact .fault _
  · exact .next suspension

end

section
variable {s s' : State}

theorem SameMachine.raiseFatal_congr (same : SameMachine s s') (k : FatalKind) (v : Option Word) :
    SameMachine (raiseFatal k (s.pc - 1) v s) (raiseFatal k (s'.pc - 1) v s') :=
  { same with status := by rw [raiseFatal_status, raiseFatal_status, same.pc] }

theorem SameMachine.alike_withAddr (same : SameMachine s s') {i : Instr} {n : Nat} {body body' : State}
    (valid : SameMachine body body') : Alike SameMachine (.next (withAddr i n s body)) (.next (withAddr i n s' body')) :=
  Machine.alike_withAddr valid (same.raiseFatal_congr _ _)

theorem SameMachine.arith_congr (same : SameMachine s s') (i : Instr) (op : Int → Int → Int) (n : Nat) :
    SameMachine (arith i op n s) (arith i op n s') :=
  { same with acc := by rw [arith_eq, arith_eq, same.acc, same.mem], status := rfl }

theorem SameMachine.branch_congr (same : SameMachine s s') (i : Instr) (xs xs' : List Word) (taken : Bool) (n : Nat) :
    SameMachine (branch i xs taken n s) (branch i xs' taken n s') := by
  rw [branch_eq, branch_eq]
  exact { same with pc := by rw [same.pc], status := rfl }

/-- No instruction reads an observation channel. -/
theorem SameMachine.alike_exec (same : SameMachine s s') {i : Instr} (notDat : ∀ v, i ≠ .dat v) :
    Alike SameMachine (exec i s) (exec i s') := by
  have accRead : SameMachine (noteAccRead s) (noteAccRead s') := { same with }
  cases i with
  | dat v => exact absurd rfl (notDat v)
  | add n | sub n => exact same.alike_withAddr (same.arith_congr ..)
  | sta n => exact same.alike_withAddr { same with mem := by simp [same.mem, same.acc], status := rfl }
  | lda n => exact same.alike_withAddr { same with acc := by simp [memValue, same.mem], status := rfl }
  | bra n => exact same.alike_withAddr (same.branch_congr ..)
  | brz n | brp n => exact same.alike_withAddr (by rw [same.acc]; exact accRead.branch_congr ..)
  | inp =>
    refine alike_execInp same (fun v => ?_) { same with status := congrArg Status.awaitingInput same.resume }
    exact { same with
      acc := rfl, inputs := congrArg List.tail same.inputs, inputPos := congrArg Nat.succ same.inputPos, status := rfl }
  | out | hlt => exact alike_ifReturns same.outputReturns { same with status := rfl }
  | illegalLow0xx | illegalUnassigned4xx | illegalReserved900 | illegalHigh9xx => exact .next (same.raiseFatal_congr _ _)

theorem sameMachine_stepCongruence : StepCongruence SameMachine where
  same same := same
  script _ same := { same with script := rfl }
  resume _ same := { same with resume := rfl }
  reply _ same := { same with }
  afterFetch same := { same with pc := congrArg Nat.succ same.pc }
  exec w same := same.alike_exec (decode_ne_dat w)
  pastEnd same := { same with status := rfl }
  deliver _ _ same := { same with acc := rfl, status := rfl }
  reset same := { same with acc := rfl, pc := rfl, mem := same.image, status := rfl }

end

/-- Settles O37: every part of a step keeps the agreement on everything but the observation channels. -/
theorem observationChannelsDoNotInfluence : Obligations.ObservationChannelsDoNotInfluence := by
  intro s s' t same h
  have alike := sameMachine_stepCongruence.alike_step same
  rw [h] at alike
  generalize step s' = a at alike ⊢
  cases alike with
  | next same' => exact ⟨_, rfl, same'⟩

/-- The second machine is the first with the trace threshold given. -/
def HasThreshold (l : TraceLevel) (s s' : State) : Prop := s' = withThreshold l s

theorem branch_withThreshold (l : TraceLevel) (i : Instr) (xs : List Word) (taken : Bool) (n : Nat) (s : State) :
    branch i xs taken n (withThreshold l s) = withThreshold l (branch i xs taken n s) := by
  rw [branch_eq, branch_eq]
  rfl

theorem sameMachine_withThreshold (l : TraceLevel) (s : State) : SameMachine s (withThreshold l s) := by
  constructor <;> rfl

/-- No instruction reads the trace threshold. -/
theorem alike_exec_withThreshold (l : TraceLevel) (s : State) {i : Instr} (notDat : ∀ v, i ≠ .dat v) :
    Alike (HasThreshold l) (exec i s) (exec i (withThreshold l s)) := by
  cases i with
  | dat v => exact absurd rfl (notDat v)
  | add n | sub n | sta n | lda n => exact alike_withAddr rfl rfl
  | bra n => exact alike_withAddr (branch_withThreshold l _ _ _ _ s) rfl
  | brz n | brp n => exact alike_withAddr (branch_withThreshold l _ _ _ _ (noteAccRead s)) rfl
  | inp => exact alike_execInp (sameMachine_withThreshold l s) (fun _ => rfl) rfl
  | out | hlt => exact alike_ifReturns rfl rfl
  | illegalLow0xx | illegalUnassigned4xx | illegalReserved900 | illegalHigh9xx => exact .next rfl

theorem hasThreshold_stepCongruence (l : TraceLevel) : StepCongruence (HasThreshold l) where
  same := by rintro s _ rfl; exact sameMachine_withThreshold l s
  script := by rintro s _ q rfl; rfl
  resume := by rintro s _ r rfl; rfl
  reply := by rintro s _ p rfl; rfl
  afterFetch := by rintro s _ rfl; rfl
  exec := by rintro s _ w rfl; exact alike_exec_withThreshold l s (decode_ne_dat w)
  pastEnd := by rintro s _ rfl; rfl
  deliver := by rintro s _ v r rfl; rfl
  reset := by rintro s _ rfl; rfl

/-- Settles O36: every part of a step keeps the change of the threshold, and answers that are alike by it are equal but for
it. -/
theorem traceThresholdChangesNothing : Obligations.TraceThresholdChangesNothing := by
  intro s l
  have changed : HasThreshold l s (withThreshold l s) := rfl
  have alike := (hasThreshold_stepCongruence l).alike_step changed
  generalize step s = a, step (withThreshold l s) = a' at alike ⊢
  cases alike with
  | next h => exact congrArg Host.Outcome.next h
  | fault | refused => rfl

end Sys2Proof.Machine
end

section
/-! The assembly of a format A instruction: its digit, then the two digits of a numeral or of a label's index (40_assembler
R120, R123, R124). -/

namespace Sys2Proof.Machine

theorem emitTemplated_of_digits {op : Nat} {r : Record} {a : Token} (short : a.length ≤ 2)
    (digits : a.all isDigit = true) : emitTemplated op r (some a) = .ok (cap (100 * op + decimalValue a)) :=
  (if_neg (Nat.not_lt.2 short)).trans (if_pos digits)

theorem substitute_unbound {labels : List LabelEntry} {a : Token} (unbound : lookupLabel labels a = none) :
    substitute labels (some a) = some a := by
  simp only [substitute, Option.map_some, unbound]

theorem substitute_bound {labels : List LabelEntry} {l : Token} {e : LabelEntry} (bound : lookupLabel labels l = some e) :
    substitute labels (some l) = some (twoDigits e.index) := by
  simp only [substitute, Option.map_some, bound]

theorem emitRecord_templated {labels : List LabelEntry} {r : Record} {op : Nat}
    (emission : r.mnemonic.emission = .templated op) :
    emitRecord labels r = emitTemplated op r (substitute labels r.arg) := by
  rw [emitRecord, emission]

/-- A templated mnemonic assembles to the instruction whose word is its digit followed by the operand. -/
theorem assemblesWithAddress_of_templated {spelling : Token} {m : Mnemonic} {op : Nat} {i : Nat → Instr}
    (recognised : mnemonicOf spelling = some m) (emission : m.emission = .templated op)
    (word : ∀ n, encode (i n) = cap (100 * op + n)) : AssemblesWithAddress spelling m i where
  recognised := recognised
  numeral := by
    intro labels n text line _ short digits unbound
    rw [emitRecord_templated emission, substitute_unbound unbound, emitTemplated_of_digits short digits, word]
  label := by
    intro labels l e text line bound index
    obtain ⟨digits, value⟩ := twoDigits_digits index
    have short : (twoDigits e.index).length ≤ 2 := Nat.le_refl 2
    rw [emitRecord_templated emission, substitute_bound bound, emitTemplated_of_digits short digits, value, word]

end Sys2Proof.Machine
end

section
/-! ADD and SUB: what their shared body leaves, and the accumulator under the signed view (42_arithmetic R180, R182, R185). -/

namespace Sys2Proof.Machine

theorem exec_add {n : Nat} (hn : n < 100) (s : State) :
    exec (.add n) s = .next (arith (.add n) (fun x m => x + m) n s) :=
  congrArg Host.Outcome.next (withAddr_valid (.add n) s _ hn)

theorem exec_sub {n : Nat} (hn : n < 100) (s : State) :
    exec (.sub n) s = .next (arith (.sub n) (fun x m => x - m) n s) :=
  congrArg Host.Outcome.next (withAddr_valid (.sub n) s _ hn)

@[simp] theorem arith_acc (i : Instr) (op : Int → Int → Int) (n : Nat) (s : State) :
    (arith i op n s).acc = cap (op s.acc.val (wordAt s n).val) := rfl

/-- The accumulator apart, ADD and SUB leave the same: the record of what they read and wrote, one low-verbosity trace, and
the outcome. -/
theorem arith_frame (i : Instr) (op : Int → Int → Int) (n : Nat) (s : State) :
    (arith i op n s).pc = s.pc ∧ (∀ a, wordAt (arith i op n s) a = wordAt s a) ∧
    (arith i op n s).instr =
      { s.instr with accRead := true, accWritten := true, memReads := s.instr.memReads.insert n } ∧
    (∃ k, (arith i op n s).events = s.events ++ [.trace .low k]) ∧ (arith i op n s).freeCount = s.freeCount ∧
    KeepsInput s (arith i op n s) ∧ KeepsHostSide s (arith i op n s) ∧ EndsWith .continued (arith i op n s) := by
  rw [arith_eq]
  exact ⟨rfl, fun _ => rfl, rfl, ⟨_, rfl⟩, rfl, ⟨rfl, rfl⟩, ⟨rfl, rfl, rfl, rfl⟩, ⟨rfl, rfl⟩⟩

/-- A word and its signed view differ by a multiple of 1000. -/
theorem dec_modEq (w : Word) : dec w ≡ w.val [ZMOD 1000] := by
  have view := dec_cap_emod (w.val : Int)
  rwa [cap_val_self] at view

/-- Capping and the signed view see an integer modulo 1000 only: they give back an integer in -500..499 congruent to it,
and a multiple of 1000 more than any other. -/
theorem dec_cap_of_modEq {y z : Int} (h : z ≡ y [ZMOD 1000]) :
    (-500 ≤ z → z ≤ 499 → dec (cap y) = z) ∧ ∃ q : Int, dec (cap y) = z + 1000 * q := by
  have same : cap y = cap z := cap_eq_cap_iff.2 h.symm
  rw [same]
  have congruent : z ≡ dec (cap z) [ZMOD 1000] := (dec_cap_emod z).symm
  obtain ⟨q, multiple⟩ := congruent.dvd
  exact ⟨fun lo hi => (dec_cap_eq_self_iff z).2 ⟨lo, hi⟩, q, eq_add_of_sub_eq' multiple⟩

/-- Settles O10: sum and difference of the signed views are congruent to those of the words. -/
theorem signedViewOfAddAndSub : Obligations.SignedViewOfAddAndSub := by
  intro s n hn
  have acc := dec_modEq s.acc
  have operand := dec_modEq (wordAt s n)
  exact ⟨⟨_, exec_add hn s, dec_cap_of_modEq (acc.add operand)⟩, ⟨_, exec_sub hn s, dec_cap_of_modEq (acc.sub operand)⟩⟩

/-- Settles O8: the capped sum, in the frame ADD shares with SUB. -/
theorem addResult : Obligations.AddResult := by
  refine ⟨fun w lo hi => (DecodesTo.add lo hi).decode_eq, assemblesWithAddress_of_templated (by decide) rfl fun _ => rfl,
    fun s n hn => ⟨_, exec_add hn s, ?acc, arith_frame ..⟩⟩
  case acc =>
    apply Int.natCast_inj.1
    rw [arith_acc, cap_val_cast]
    rfl

/-- Settles O9: the capped difference, in the frame SUB shares with ADD. -/
theorem subResult : Obligations.SubResult := by
  refine ⟨fun w lo hi => (DecodesTo.sub lo hi).decode_eq, assemblesWithAddress_of_templated (by decide) rfl fun _ => rfl,
    fun s n hn => ⟨_, exec_sub hn s, ?acc, arith_frame ..⟩⟩
  case acc => rw [arith_acc, cap_val_cast]

end Sys2Proof.Machine
end

section
/-! STA and LDA: each whole, and the store followed by the load (43_load_store R190, R192, R195). -/

namespace Sys2Proof.Machine

theorem exec_lda {n : Nat} (hn : n < 100) (s : State) :
    exec (.lda n) s = .next (finish .continued (maybeTeach (.lda n) [wordAt s n] (cap (wordAt s n).val).val
      (accWrite (wordAt s n).val (noteMemRead n s)))) :=
  congrArg Host.Outcome.next (withAddr_valid (.lda n) s _ hn)

/-- An unspecified trace adds one low-verbosity trace at the end, or nothing. -/
theorem maybeTeach_optionalLowTrace (i : Instr) (xs : List Word) (r : Nat) (s : State) :
    ∃ tail, (maybeTeach i xs r s).events = s.events ++ tail ∧ OptionalLowTrace tail := by
  obtain same | more := maybeTeach_events_cases i xs r s
  · exact ⟨[], same.trans (List.append_nil _).symm, .inl rfl⟩
  · exact ⟨_, more, .inr ⟨_, rfl⟩⟩

/-- Settles O11: the address written reads as the accumulator, every other as before, and only a trace is added. -/
theorem staResult : Obligations.StaResult := by
  refine ⟨fun w lo hi => (DecodesTo.sta lo hi).decode_eq, assemblesWithAddress_of_templated (by decide) rfl fun _ => rfl,
    fun s n hn => ⟨_, exec_sta hn s, ?stored, fun a ha => ?others, rfl, rfl, rfl, maybeTeach_optionalLowTrace ..,
      ⟨rfl, rfl⟩, ⟨rfl, rfl, rfl, rfl⟩, ⟨rfl, rfl⟩⟩⟩
  case stored => exact Memory.get_set_same s.mem n s.acc
  case others => exact Memory.get_set_other s.mem s.acc ha

/-- Settles O12: the word read is in 0..999, so that the accumulator's cap leaves it as it is. -/
theorem ldaResult : Obligations.LdaResult := by
  refine ⟨fun w lo hi => (DecodesTo.lda lo hi).decode_eq, assemblesWithAddress_of_templated (by decide) rfl fun _ => rfl,
    fun s n hn => ⟨_, exec_lda hn s, ?loaded, rfl, fun _ => rfl, rfl, maybeTeach_optionalLowTrace ..,
      ⟨rfl, rfl⟩, ⟨rfl, rfl, rfl, rfl⟩, ⟨rfl, rfl⟩⟩⟩
  case loaded => exact cap_val_self (wordAt s n)

/-- Settles O39: the load answers the word at the address, which is the one the store left there. -/
theorem storeThenLoadRoundTrips : Obligations.StoreThenLoadRoundTrips := by
  intro s t u n hn store same
  obtain ⟨-, -, stored⟩ := exec_sta_leaves hn store
  obtain ⟨-, -, lda⟩ := ldaResult
  obtain ⟨r, load, loaded, -⟩ := lda u n hn
  exact ⟨r, load, loaded.trans (same.trans stored)⟩

end Sys2Proof.Machine
end

section
/-! BRA, BRZ and BRP: each whole, from the frame of their shared end and from their two tests (44_branch R200, R202, R204). -/

namespace Sys2Proof.Machine

theorem exec_bra {n : Nat} (hn : n < 100) (s : State) : exec (.bra n) s = .next (branch (.bra n) [] true n s) :=
  congrArg Host.Outcome.next (withAddr_valid (.bra n) s _ hn)

theorem exec_brz {n : Nat} (hn : n < 100) (s : State) :
    exec (.brz n) s = .next (branch (.brz n) [s.acc] (isZero s.acc) n (noteAccRead s)) :=
  congrArg Host.Outcome.next (withAddr_valid (.brz n) s _ hn)

theorem exec_brp {n : Nat} (hn : n < 100) (s : State) :
    exec (.brp n) s = .next (branch (.brp n) [s.acc] (isPositive s.acc) n (noteAccRead s)) :=
  congrArg Host.Outcome.next (withAddr_valid (.brp n) s _ hn)

theorem isZero_iff {x : Word} : isZero x = true ↔ x.val = 0 := decide_eq_true_iff

theorem isPositive_iff {x : Word} : isPositive x = true ↔ x.val < 500 := decide_eq_true_iff

/-- BRP's test is that of the sign under the signed view (44_branch R204, 00_scope R12). -/
theorem lt_500_iff_dec_nonneg (w : Word) : w.val < 500 ↔ 0 ≤ dec w := by
  have hw : w.val < 1000 := w.isLt
  rw [dec_eq_ite]
  split <;> omega

/-- The counter apart, the branches leave the same: the record `r` of what they read, one low-verbosity trace, and the
outcome. -/
theorem branch_frame {i : Instr} {xs : List Word} {taken : Bool} {n : Nat} {r : Instrumentation} {s t : State}
    (h : t = branch i xs taken n { s with instr := r }) :
    t.acc = s.acc ∧ (∀ a, wordAt t a = wordAt s a) ∧ t.instr = r ∧
    (∃ k, t.events = s.events ++ [.trace .low k]) ∧ t.freeCount = s.freeCount ∧
    KeepsInput s t ∧ KeepsHostSide s t ∧ EndsWith .continued t := by
  rw [h, branch_eq]
  exact ⟨rfl, fun _ => rfl, rfl, ⟨_, rfl⟩, rfl, ⟨rfl, rfl⟩, ⟨rfl, rfl, rfl, rfl⟩, ⟨rfl, rfl⟩⟩

/-- Settles O13: the target overwrites the counter, and the record is the one before, for the accumulator is not read. -/
theorem braResult : Obligations.BraResult :=
  ⟨fun _ lo hi => (DecodesTo.bra lo hi).decode_eq, assemblesWithAddress_of_templated (by decide) rfl fun _ => rfl,
    fun s _ hn => ⟨_, exec_bra hn s, branch_pc .., branch_frame rfl⟩⟩

/-- Settles O14: taken or not, the accumulator has been read, and the counter follows the test for 0. -/
theorem brzResult : Obligations.BrzResult := by
  refine ⟨fun w lo hi => (DecodesTo.brz lo hi).decode_eq, assemblesWithAddress_of_templated (by decide) rfl fun _ => rfl,
    fun s n hn => ⟨_, exec_brz hn s, ?pc, branch_frame rfl⟩⟩
  case pc => rw [branch_pc, noteAccRead_pc, if_congr isZero_iff rfl rfl]

/-- Settles O15: taken or not, the accumulator has been read, and the counter follows the test for a sign of zero or
more. -/
theorem brpResult : Obligations.BrpResult := by
  refine ⟨fun w lo hi => (DecodesTo.brp lo hi).decode_eq, assemblesWithAddress_of_templated (by decide) rfl fun _ => rfl,
    fun s n hn => ⟨_, exec_brp hn s, ?pc, lt_500_iff_dec_nonneg s.acc, branch_frame rfl⟩⟩
  case pc => rw [branch_pc, noteAccRead_pc, if_congr isPositive_iff rfl rfl]

end Sys2Proof.Machine
end

section
/-! INP, OUT and HLT: the word and the assembly of each, its execution whole, and where the engine is stuck inside a step
(45_io_halt R210 to R221; 70_reset_and_hazards R273). -/

namespace Sys2Proof.Machine

/-- The words read as an instruction that is no DAT: the one it is encoded as. -/
theorem decode_eq_iff {i : Instr} (wf : WellFormed i) (notDat : ∀ v, i ≠ .dat v) {w : Word} :
    decode w = i ↔ w.val = (encode i).val := by
  rw [← Fin.ext_iff]
  constructor
  · rintro rfl
    exact (encode_decode w).symm
  · rintro rfl
    exact encodedInstructionDecodesBack i wf notDat

/-- A mnemonic of a fixed code assembles to that code's instruction, and an argument is an error (40_assembler R121). -/
theorem assemblesAlone_of_fixed {spelling : Token} {m : Mnemonic} {i : Instr} (recognised : mnemonicOf spelling = some m)
    (emission : m.emission = .fixed i) : AssemblesAlone spelling m i where
  recognised := recognised
  alone := by
    intro labels text line
    simp only [emitRecord, emission]
  argument := by
    intro labels a text line
    simp only [emitRecord, emission]

theorem exec_out {s : State} (returns : s.cfg.outputReturns = true) :
    exec .out s = .next (finish .continued (maybeTeach .out [s.acc] s.acc.val
      (emit (.output (dec s.acc)) (noteAccRead s)))) := if_pos returns

theorem exec_hlt {s : State} (returns : s.cfg.outputReturns = true) :
    exec .hlt s = .next (finish (.halted .explicitHalt) (maybeTeach .hlt [] s.pc
      (emit (.completion s.cfg.haltMessage) s))) := if_pos returns

/-- After an event exchanged with a collaborator an unspecified trace adds one low-verbosity trace, or nothing. -/
theorem maybeTeach_exchanged {past : List Event} {e : Event} {s : State} (exchanged : s.events = past ++ [e]) (i : Instr)
    (xs : List Word) (r : Nat) :
    ∃ tail, (maybeTeach i xs r s).events = past ++ e :: tail ∧ OptionalLowTrace tail := by
  obtain ⟨tail, events, optional⟩ := maybeTeach_optionalLowTrace i xs r s
  rw [exchanged, List.append_assoc] at events
  exact ⟨tail, events, optional⟩

theorem nextInput_of_known {s : State} {v : Int} {rest : List Int} (known : s.inputs = v :: rest) :
    nextInput s = some v := by
  rw [nextInput, known]

theorem nextInput_of_nil {s : State} (nothingKnown : s.inputs = []) :
    nextInput s = if s.cfg.producerAnswers then some (Config.freeInput s.inputPos) else none := by
  rw [nextInput, nothingKnown]

theorem exec_inp_stuck {s : State} (mode : s.cfg.inputMode = .blocking) (noInput : nextInput s = none) :
    exec .inp s = .fault .inputNeverArrives := by
  change execInp s = _
  rw [execInp, mode, noInput]

theorem engineStep_stuck {s : State} (ready : s.status = .ready) (stuck : s.cfg.traceReturns = false) :
    engineStep s = .fault .traceNeverReturns := by
  rw [engineStep, ready, stuck]
  rfl

/-- Whatever form the request has, the step it asks for calls the trace consumer first. -/
theorem step_stuck {s : State} (request : RequestsEngine s) (ready : s.status = .ready)
    (stuck : s.cfg.traceReturns = false) : step s = .fault .traceNeverReturns := by
  obtain empty | ⟨r, rest, one⟩ | ⟨rest, run⟩ := request
  · rw [step_of_noRequest empty, engineStep_stuck ready stuck]
  · rw [step_of_stepRequest one]
    exact engineStep_stuck ready stuck
  · rw [step_of_runRequest run]
    exact runTurn_of_fault (engineStep_stuck ready stuck)

/-- Settles O16: the accumulator's write caps the encoded integer, which is consumed and noted before the trace. -/
theorem inpBlockingResult : Obligations.InpBlockingResult := by
  refine ⟨fun w => decode_eq_iff rfl (by nofun), assemblesAlone_of_fixed (by decide) rfl,
    fun s v mode next => ⟨_, exec_inp_blocking mode next, ?acc, rfl, fun _ => rfl, rfl, rfl, rfl,
      maybeTeach_exchanged rfl .., ⟨rfl, rfl, rfl, rfl⟩, ⟨rfl, rfl⟩⟩,
    fun s v rest => nextInput_of_known,
    fun s nothingKnown answers => ⟨_, (nextInput_of_nil nothingKnown).trans (if_pos answers)⟩⟩
  case acc =>
    change ((cap (enc v)).val : Int) = v % 1000
    rw [cap_enc, cap_val_cast]

/-- Settles O17: nothing but the trace counter, an optional trace and the outcome is written. -/
theorem inpSuspensionResult : Obligations.InpSuspensionResult :=
  fun _ mode => ⟨_, exec_inp_suspension mode, rfl, rfl, fun _ => rfl, rfl, maybeTeach_optionalLowTrace ..,
    ⟨rfl, rfl⟩, ⟨rfl, rfl, rfl, rfl⟩, ⟨rfl, rfl⟩⟩

/-- Settles O18: one collaborator for each clause, asked by INP, by OUT and HLT, and by every step. -/
theorem stuckInsideTheStep : Obligations.StuckInsideTheStep := by
  refine ⟨fun s mode nothingKnown silent => exec_inp_stuck mode ?noInput,
    fun s stuck => ?output, fun s => step_stuck⟩
  case noInput => exact (nextInput_of_nil nothingKnown).trans (if_neg (Bool.eq_false_iff.1 silent))
  case output =>
    have noReturn : ¬s.cfg.outputReturns = true := Bool.eq_false_iff.1 stuck
    exact ⟨if_neg noReturn, if_neg noReturn⟩

/-- Settles O19: the event carries the signed view of the accumulator, which is read and left. -/
theorem outResult : Obligations.OutResult :=
  ⟨fun _ => decode_eq_iff rfl (by nofun), assemblesAlone_of_fixed (by decide) rfl,
    fun _ returns => ⟨_, exec_out returns, maybeTeach_exchanged rfl .., rfl, rfl, fun _ => rfl, rfl,
      ⟨rfl, rfl⟩, ⟨rfl, rfl, rfl, rfl⟩, ⟨rfl, rfl⟩⟩⟩

/-- Settles O20: one completion event, no access to the accumulator, and the outcome that halts the engine. -/
theorem hltResult : Obligations.HltResult :=
  ⟨fun _ => decode_eq_iff rfl (by nofun), assemblesAlone_of_fixed (by decide) rfl,
    fun _ returns => ⟨_, exec_hlt returns, maybeTeach_exchanged rfl .., rfl, rfl, fun _ => rfl, rfl,
      ⟨rfl, rfl⟩, ⟨rfl, rfl, rfl, rfl⟩, ⟨rfl, rfl⟩⟩⟩

end Sys2Proof.Machine
end

section
/-! The fatal errors: the instructions that take one and all that it changes, and which of them a step can end with
(60_exceptions R230 to R237). -/

namespace Sys2Proof.Machine

/-- Taking the fatal error writes the status latch and what is handed back (60_exceptions R236, R237). -/
theorem onlyFatal_raiseFatal (k : FatalKind) (a : Nat) (v : Option Word) (s : State) :
    OnlyFatal k a v s (raiseFatal k a v s) :=
  ⟨rfl, rfl, fun _ => rfl, rfl, rfl, ⟨rfl, rfl⟩, ⟨rfl, rfl, rfl, rfl⟩, ⟨rfl, rfl⟩⟩

theorem exec_of_illegalWord {i : Instr} {c : IllegalClass} {w : Word} (h : illegalWord i = some (c, w)) (s : State) :
    exec i s = .next (raiseFatal (.invalidInstruction c) (s.pc - 1) (some w) s) := by
  cases i <;> cases h <;> rfl

theorem exec_of_badOperand {i : Instr} {n : Nat} (h : operandAddr i = some n) (hn : ¬n < 100) (s : State) :
    exec i s = .next (raiseFatal .addressOutOfRange (s.pc - 1) (some (encode i)) s) := by
  cases i <;> cases h <;> exact congrArg Host.Outcome.next (withAddr_invalid _ s _ hn)

/-- An illegal instruction ends in a state that differs by its fatal error only. -/
theorem exec_onlyFatal_of_illegalWord {i : Instr} {c : IllegalClass} {w : Word} (h : illegalWord i = some (c, w))
    (s : State) : ∃ t, exec i s = .next t ∧ OnlyFatal (.invalidInstruction c) (s.pc - 1) (some w) s t :=
  ⟨_, exec_of_illegalWord h s, onlyFatal_raiseFatal ..⟩

/-- Settles O21: `illegalWord` gives the class and the word of each of the four instructions. -/
theorem illegalWordsTakeTheFatalError : Obligations.IllegalWordsTakeTheFatalError :=
  fun s _ =>
    ⟨exec_onlyFatal_of_illegalWord rfl s, exec_onlyFatal_of_illegalWord rfl s, exec_onlyFatal_of_illegalWord rfl s,
      exec_onlyFatal_of_illegalWord rfl s⟩

/-- Settles O23: the seven instructions are those with an operand address, which fails the defensive check. -/
theorem operandOutOfRangeIsFatal : Obligations.OperandOutOfRangeIsFatal := by
  intro s n hn i hi
  have operand : operandAddr i = some n := by
    simp only [List.mem_cons, List.not_mem_nil, or_false] at hi
    obtain rfl | rfl | rfl | rfl | rfl | rfl | rfl := hi <;> rfl
  exact ⟨_, exec_of_badOperand operand (Nat.not_lt.2 hn) s, onlyFatal_raiseFatal ..⟩

/-- Settles O32: past the end the step is the announcement and the fatal error. -/
theorem fetchPastTheEndFaults : Obligations.FetchPastTheEndFaults := by
  intro s requested returns hp
  have past : ¬s.pc < 100 := Nat.not_lt.2 (Nat.le_of_eq hp.symm)
  refine ⟨fetchPastEnd s, ?step, hp, rfl, fun _ => rfl, rfl, ?events, ⟨rfl, rfl⟩, ⟨rfl, rfl, rfl, rfl⟩, ⟨rfl, rfl⟩⟩
  case step => rw [step_of_requested requested, engineStep_pastEnd requested.ready returns past]
  case events =>
    rw [← hp]
    rfl

theorem illegalWord_decode_eq_some_iff {w x : Word} {c : IllegalClass} :
    illegalWord (decode w) = some (c, x) ↔ classOf w = some c ∧ w = x := by
  rw [illegalWord_decode]
  simp

/-- The fetch exchanges nothing but trace events with the collaborators (41_step_cycle R151, R152). -/
theorem filter_afterFetch_events {p : Event → Bool} (noTrace : ∀ l k, p (.trace l k) = false) (s : State) :
    (afterFetch s).events.filter p = s.events.filter p := by
  simp [afterFetch_events, noTrace]

/-- Settles O33: the word at `pc` takes its fatal error in the state after the fetch. -/
theorem illegalWordFaultsWhereItStands : Obligations.IllegalWordFaultsWhereItStands := by
  intro s c requested returns hp hc
  have illegal : illegalWord (decode (wordAt s s.pc)) = some (c, wordAt s s.pc) :=
    illegalWord_decode_eq_some_iff.2 ⟨hc, rfl⟩
  refine ⟨raiseFatal (.invalidInstruction c) s.pc (some (wordAt s s.pc)) (afterFetch s), ?step, rfl, rfl, fun _ => rfl,
    filter_afterFetch_events (fun _ _ => rfl) s, filter_afterFetch_events (fun _ _ => rfl) s, ⟨rfl, rfl⟩,
    ⟨rfl, rfl, rfl, rfl⟩, ⟨rfl, rfl⟩⟩
  rw [step_eq_exec requested returns hp]
  exact exec_of_illegalWord illegal (afterFetch s)

/-- An instruction that has an encoding ends faulted only if it is an illegal word, with the triple of 60_exceptions
R231. -/
theorem Executes.illegal_of_faulted {i : Instr} {s t : State} {k : FatalKind} {a : Nat} {v : Option Word}
    (e : Executes s i t) (wf : WellFormed i) (faulted : t.status = .faulted k a v) :
    ∃ c w, illegalWord i = some (c, w) ∧ k = .invalidInstruction c ∧ a = s.pc - 1 ∧ v = some w := by
  cases e with
  | illegal hw =>
    cases faulted
    exact ⟨_, _, hw, rfl, rfl, rfl⟩
  | badOperand hi hn => exact absurd (operandAddr_lt wf hi) hn
  | _ => cases faulted

/-- The fatal errors a step from `s` can end with: a fetch past the end (60_exceptions R233), and the illegal word at `pc`
(60_exceptions R231). -/
def ListedFatal (s : State) (k : FatalKind) (a : Nat) (v : Option Word) : Prop :=
  (k = .fetchOutOfRange ∧ 100 ≤ s.pc ∧ a = 100 ∧ v = none) ∨
  ∃ c, k = .invalidInstruction c ∧ s.pc < 100 ∧ a = s.pc ∧ v = some (wordAt s s.pc) ∧ classOf (wordAt s s.pc) = some c

theorem engineStep_listedFatal {s t : State} {k : FatalKind} {a : Nat} {v : Option Word} (h : engineStep s = .next t)
    (faulted : t.status = .faulted k a v) : ListedFatal s k a v := by
  obtain ⟨hp, e⟩ | ⟨hp, rfl⟩ := engineStep_cases h
  · obtain ⟨c, w, illegal, rfl, rfl, rfl⟩ := e.illegal_of_faulted (decode_wellFormed _) faulted
    obtain ⟨hc, rfl⟩ := illegalWord_decode_eq_some_iff.1 illegal
    exact .inr ⟨c, rfl, hp, rfl, rfl, hc⟩
  · cases faulted
    exact .inl ⟨rfl, Nat.le_of_not_lt hp, rfl, rfl⟩

/-- Settles O40: a step ends faulted only by an engine step it serves; a delivery and a reset end in Ready. -/
theorem onlyTheListedFatalErrors : Obligations.OnlyTheListedFatalErrors := by
  intro s t k a v h faulted
  obtain ⟨-, h⟩ | ⟨r, rest, -, h⟩ | ⟨rest, -, h⟩ | ⟨input, rest, -, h⟩ | ⟨rest, -, rfl⟩ := step_next h
  · exact engineStep_listedFatal h faulted
  · exact (engineStep_listedFatal h faulted :)
  · obtain ⟨u, hu, ⟨ready, rfl⟩ | ⟨-, rfl⟩⟩ := runTurn_next h
    · cases ready.symm.trans faulted
    · exact (engineStep_listedFatal hu faulted :)
  · obtain ⟨-, r, -, rfl⟩ := deliverInput_next h
    cases faulted
  · cases faulted

end Sys2Proof.Machine
end

section
/-! Every well-formed instruction completes, and what a reset restores and keeps (70_reset_and_hazards R260 to R264,
R273). -/

namespace Sys2Proof.Machine

/-- Settles O24: a DAT in range runs as the instruction its word is read as, which is no DAT. -/
theorem everyInstructionCompletes : Obligations.EveryInstructionCompletes := by
  intro i s wf answer
  cases i with
  | dat v =>
    rw [exec_dat wf]
    exact exec_completes_of_ne_dat (decode_ne_dat _) answer
  | _ => exact exec_completes_of_ne_dat (fun v => Instr.noConfusion) answer

/-- A reset writes constants and the image, and keeps the image, so nothing is left for a second one to change
(70_reset_and_hazards R264). -/
theorem hostReset_hostReset (s : State) : hostReset (hostReset s) = hostReset s := rfl

/-- Settles O48: the step that serves the request, and each field of what it leaves. -/
theorem resetRestoresTheEngine : Obligations.ResetRestoresTheEngine := by
  refine ⟨fun s rest request => ?_, hostReset_hostReset⟩
  exact ⟨_, step_of_reset request, hostReset_pc _, hostReset_acc _, fun _ => rfl, hostReset_image _, hostReset_status _,
    hostReset_instr _, hostReset_cfg _, hostReset_events _, ⟨hostReset_inputs _, hostReset_inputPos _⟩,
    hostReset_script _⟩

end Sys2Proof.Machine
end
